-- ==== Sys2Proof/Word.lean ====
section
/-! DEFINITION. The word types of the machine (spec/00_scope.md R9, R11): bytes, the 16-bit delay
count, the 24-bit frame or command word. -/

namespace Sys2Proof

/-- A byte: `OP`, `A`, `B`, `PAY[0]`, `PAY[1]`, every address, value, glyph and wire byte (R11). -/
abbrev Byte := BitVec 8

/-- The delay count `n` and `DN`, `NW` = 16 bits (R11; 40_delay.md R140). -/
abbrev Word16 := BitVec 16

/-- A frame or a command word, bits 23 down to 0 (R9). -/
abbrev Word24 := BitVec 24

end Sys2Proof
end

