-- ==== Sys2Proof/Agents.lean ====
section
/-! DEFINITION. The five agents of the machine (spec/00_scope.md R7) and the moves the acting ones
can take. -/

namespace Sys2Proof

/-- The agents of R7. -/
inductive Agent where
  /-- The framer and sequencer. -/
  | block
  /-- The single caller at the command port. -/
  | host
  /-- The excluded bus peripheral, steps PE1 to PE3. -/
  | busp
  /-- The excluded hardware counter, step TE1. -/
  | timer
  /-- The MAX7219: passive, it has no step of its own (20_memory.md R85). -/
  | slave
  deriving DecidableEq, Repr

/-- One turn of the machine. The block has one enabled step at most (60_exceptions.md R246), so its
turn needs no further name; a turn of the bus peripheral names which of its three steps it is. -/
inductive Move where
  /-- The block takes its enabled step: ACCEPT, or the micro-step `MS` names. -/
  | block
  /-- The host offers its next word (10_state.md R24). -/
  | host
  /-- Load the shift register (20_memory.md R81). -/
  | pe1
  /-- Finish shifting a byte (R82). -/
  | pe2
  /-- Finish a receive flush (R83). -/
  | pe3
  /-- The running counter overflows (60_exceptions.md R262). -/
  | te1
  deriving DecidableEq, Repr, Inhabited

/-- Whose turn a move is. No move is the slave's (20_memory.md R85). -/
def Move.agent : Move → Agent
  | .block => .block
  | .host => .host
  | .pe1 => .busp
  | .pe2 => .busp
  | .pe3 => .busp
  | .te1 => .timer

end Sys2Proof
end

