-- ==== Sys2Proof/Config.lean ====
section
/-! DEFINITION. What an implementation fixes and the source leaves OPEN (spec/00_scope.md R8), and
the model's free values. Every constant here is opaque: no proof can learn its value, so a theorem
holds for every value of it (log 1, 5, 19). The parameters that have a value or a default stand in
Machine/Tables.lean. -/

namespace Sys2Proof

/-- `OPCODE_WRITE_BUFFER`, the first byte of every frame, `OPEN` (R8; 41_transfer.md R162). -/
opaque Config.opcodeWriteBuffer : Byte

/-- `FIFO_DEPTH` less one: the depth is `OPEN` and at least 1 (R8; 92_eei_decisions.md D13). -/
opaque Config.fifoDepthLessOne : Nat

/-- `FIFO_DEPTH`, a natural of at least 1 (R8). -/
def Config.fifoDepth : Nat := Config.fifoDepthLessOne + 1

/-- `LETTER[0..4]`, the five letter glyphs of the self-test, `OPEN` (10_state.md R48). -/
opaque Config.letter : Fin 5 → Byte

/-- `RELOAD_US`, `OPEN` (40_delay.md R137). -/
opaque Config.reloadUs : Word16

/-- `RELOAD_MS`, `OPEN` (40_delay.md R137). -/
opaque Config.reloadMs : Word16

/-- `REF_CLOCK_HZ`, `OPEN`; no rule reads it (R8; 40_delay.md R137). -/
opaque Config.refClockHz : Nat

/-- FREE VALUE (log 1): which move is taken next where the schedule in State says nothing. Every
interleaving of the agents is some value of this function (10_state.md R26). -/
opaque Config.freeMove : Nat → Move

/-- FREE VALUE (log 19): the byte the receive path shifts in, the `draw(byte)` of 20_memory.md R82. -/
opaque Config.freeByte : Nat → Byte

end Sys2Proof
end

