-- ==== Sys2Proof/Syntax.lean ====
section
/-! DEFINITION. The instructions: the twelve commands of format CMD24 (spec/30_encoding.md R110)
and the fourteen frame kinds of format FRAME24 (R102), one constructor per row of
spec/opcode_table.json; the items a command expands to (44_sequencer.md R215). -/

namespace Sys2Proof

/-- The unit of a delay: microseconds or milliseconds (10_state.md R22). -/
inductive TUnit where
  | us
  | ms
  deriving DecidableEq, Repr

/-- The mode operand of `SETSHDN`: `B[0] = 0` is `shutdown`, `B[0] = 1` is `normal` (R109). -/
inductive ShdnMode where
  | shutdown
  | normal
  deriving DecidableEq, Repr

/-- The mode operand of `SETTEST`: `B[0] = 0` is `normal`, `B[0] = 1` is `test` (R109). -/
inductive TestMode where
  | normal
  | test
  deriving DecidableEq, Repr

/-- The instruction set. A frame kind carries its opcode byte `o` and its value byte `v`; the kind
itself stands for the address byte (R102). -/
inductive Instr where
  /-- `INITDISP` (44_sequencer.md R220). -/
  | initDisp
  /-- `CLRDISP` (44_sequencer.md R221). -/
  | clrDisp
  /-- `SETSCAN` (42_register_protocol.md R181). -/
  | setScan
  /-- `SETDECODE` (42_register_protocol.md R182). -/
  | setDecode
  /-- `SETSHDN mode` (42_register_protocol.md R183). -/
  | setShdn (mode : ShdnMode)
  /-- `SETTEST mode` (42_register_protocol.md R185). -/
  | setTest (mode : TestMode)
  /-- `SETINT level` (42_register_protocol.md R187, R188). -/
  | setInt (level : Byte)
  /-- `SETDIGIT value, position` (43_mapper.md R201, R202). -/
  | setDigit (value position : Byte)
  /-- `SETGLYPH pattern, position` (43_mapper.md R203, R204). -/
  | setGlyph (pattern position : Byte)
  /-- `SELFTEST` (44_sequencer.md R222). -/
  | selfTest
  /-- `WAITUS n` (40_delay.md R130). -/
  | waitUs (n : Word16)
  /-- `WAITMS n` (40_delay.md R131). -/
  | waitMs (n : Word16)
  /-- `F.NOOP` (20_memory.md R72). -/
  | fNoop (o v : Byte)
  /-- `F.DIGIT1` (20_memory.md R71). -/
  | fDigit1 (o v : Byte)
  /-- `F.DIGIT2` (20_memory.md R71). -/
  | fDigit2 (o v : Byte)
  /-- `F.DIGIT3` (20_memory.md R71). -/
  | fDigit3 (o v : Byte)
  /-- `F.DIGIT4` (20_memory.md R71). -/
  | fDigit4 (o v : Byte)
  /-- `F.DIGIT5` (20_memory.md R71). -/
  | fDigit5 (o v : Byte)
  /-- `F.DIGIT6` (20_memory.md R71). -/
  | fDigit6 (o v : Byte)
  /-- `F.DIGIT7` (20_memory.md R71). -/
  | fDigit7 (o v : Byte)
  /-- `F.DIGIT8` (20_memory.md R71). -/
  | fDigit8 (o v : Byte)
  /-- `F.DECODE` (20_memory.md R73). -/
  | fDecode (o v : Byte)
  /-- `F.INTENSITY` (20_memory.md R74). -/
  | fIntensity (o v : Byte)
  /-- `F.SCANLIMIT` (20_memory.md R75). -/
  | fScanLimit (o v : Byte)
  /-- `F.SHUTDOWN` (20_memory.md R76). -/
  | fShutdown (o v : Byte)
  /-- `F.DISPTEST` (20_memory.md R77). -/
  | fDispTest (o v : Byte)
  deriving DecidableEq, Repr

/-- The two formats of spec/30_encoding.md. -/
inductive Format where
  /-- A word the host gives the block at the command port (R107). -/
  | cmd24
  /-- What the block puts on the wire and the slave latches (R100). -/
  | frame24
  deriving DecidableEq, Repr

/-- The format of each instruction (the "format" of its row in spec/opcode_table.json). -/
def Instr.format : Instr → Format
  | .initDisp | .clrDisp | .setScan | .setDecode | .setShdn _ | .setTest _ | .setInt _
  | .setDigit _ _ | .setGlyph _ _ | .selfTest | .waitUs _ | .waitMs _ => .cmd24
  | .fNoop _ _ | .fDigit1 _ _ | .fDigit2 _ _ | .fDigit3 _ _ | .fDigit4 _ _ | .fDigit5 _ _
  | .fDigit6 _ _ | .fDigit7 _ _ | .fDigit8 _ _ | .fDecode _ _ | .fIntensity _ _
  | .fScanLimit _ _ | .fShutdown _ _ | .fDispTest _ _ => .frame24

/-- The mnemonic of each instruction, as spec/opcode_table.json spells it. -/
def Instr.mnemonic : Instr → String
  | .initDisp => "INITDISP"
  | .clrDisp => "CLRDISP"
  | .setScan => "SETSCAN"
  | .setDecode => "SETDECODE"
  | .setShdn _ => "SETSHDN"
  | .setTest _ => "SETTEST"
  | .setInt _ => "SETINT"
  | .setDigit _ _ => "SETDIGIT"
  | .setGlyph _ _ => "SETGLYPH"
  | .selfTest => "SELFTEST"
  | .waitUs _ => "WAITUS"
  | .waitMs _ => "WAITMS"
  | .fNoop _ _ => "F.NOOP"
  | .fDigit1 _ _ => "F.DIGIT1"
  | .fDigit2 _ _ => "F.DIGIT2"
  | .fDigit3 _ _ => "F.DIGIT3"
  | .fDigit4 _ _ => "F.DIGIT4"
  | .fDigit5 _ _ => "F.DIGIT5"
  | .fDigit6 _ _ => "F.DIGIT6"
  | .fDigit7 _ _ => "F.DIGIT7"
  | .fDigit8 _ _ => "F.DIGIT8"
  | .fDecode _ _ => "F.DECODE"
  | .fIntensity _ _ => "F.INTENSITY"
  | .fScanLimit _ _ => "F.SCANLIMIT"
  | .fShutdown _ _ => "F.SHUTDOWN"
  | .fDispTest _ _ => "F.DISPTEST"

/-- An item of a command's expansion (44_sequencer.md R215): a register write or a delay. -/
inductive Item where
  /-- `FRAME(a, v)`, the register write `MemWrite(a, 1, v)` (41_transfer.md R150). -/
  | frame (a v : Byte)
  /-- `WAIT(u, n)` (40_delay.md R130, R131). -/
  | wait (u : TUnit) (n : Word16)
  deriving DecidableEq, Repr

end Sys2Proof
end

