-- ==== Sys2Proof/Machine/Tables.lean ====
section
/-! DEFINITION. The parameters that have a value or a default and the constant tables
(spec/00_scope.md R8; 10_state.md R46 to R49). The six non-digit register addresses and the mode
values are the spec's defaults from general knowledge of the MAX7219, PRESUMED (log 6, log 7). -/

namespace Sys2Proof

/-- `SIZE`, the payload bytes of a frame (R8). -/
def Config.size : Nat := 2

/-- `ADDR_NOOP`, default, PRESUMED (log 6). -/
def Config.addrNoop : Byte := 0x00

/-- `ADDR_DIGIT(1)` = 1 (R47: a frame's "first byte equals p"). -/
def Config.addrDigit1 : Byte := 0x01
/-- `ADDR_DIGIT(2)` = 2 (R47). -/
def Config.addrDigit2 : Byte := 0x02
/-- `ADDR_DIGIT(3)` = 3 (R47). -/
def Config.addrDigit3 : Byte := 0x03
/-- `ADDR_DIGIT(4)` = 4 (R47). -/
def Config.addrDigit4 : Byte := 0x04
/-- `ADDR_DIGIT(5)` = 5 (R47). -/
def Config.addrDigit5 : Byte := 0x05
/-- `ADDR_DIGIT(6)` = 6 (R47). -/
def Config.addrDigit6 : Byte := 0x06
/-- `ADDR_DIGIT(7)` = 7 (R47). -/
def Config.addrDigit7 : Byte := 0x07
/-- `ADDR_DIGIT(8)` = 8 (R47). -/
def Config.addrDigit8 : Byte := 0x08

/-- `ADDR_DECODE`, default, PRESUMED (log 6). -/
def Config.addrDecode : Byte := 0x09
/-- `ADDR_INTENSITY`, default, PRESUMED (log 6). -/
def Config.addrIntensity : Byte := 0x0A
/-- `ADDR_SCANLIMIT`, default, PRESUMED (log 6). -/
def Config.addrScanLimit : Byte := 0x0B
/-- `ADDR_SHUTDOWN`, default, PRESUMED (log 6). -/
def Config.addrShutdown : Byte := 0x0C
/-- `ADDR_DISPTEST`, default, PRESUMED (log 6). -/
def Config.addrDispTest : Byte := 0x0F

/-- `VAL_SCAN_ALL8` (20_memory.md R75). -/
def Config.valScanAll8 : Byte := 0x07

/-- `VAL_NO_DECODE` (20_memory.md R73). -/
def Config.valNoDecode : Byte := 0x00

/-- `VAL_SHDN(mode)`, defaults, PRESUMED (42_register_protocol.md R184; log 7). -/
def Config.valShdn : ShdnMode → Byte
  | .shutdown => 0x00
  | .normal => 0x01

/-- `VAL_TEST(mode)`, defaults, PRESUMED (42_register_protocol.md R186; log 7). -/
def Config.valTest : TestMode → Byte
  | .normal => 0x00
  | .test => 0x01

/-- `INTENSITY_DEFAULT`, the lowest non-zero level, DEDUCED (92_eei_decisions.md D17; log 8). -/
def Config.intensityDefault : Byte := 0x01

/-- `BLANK` (10_state.md R49). -/
def Config.blank : Byte := 0x00

/-- `HOLD_MS` (R8). -/
def Config.holdMs : Word16 := 500

/-- `GLYPH[0..9]` (10_state.md R46). -/
def Config.glyphTable : List Byte :=
  [0x7E, 0x30, 0x6D, 0x79, 0x33, 0x5B, 0x5F, 0x70, 0x7F, 0x7B]

/-- `DIGIT_ADDR[1..8]`, each display position with its digit register address (10_state.md R47). -/
def Config.digitAddrTable : List (Nat × Byte) :=
  [(1, Config.addrDigit1), (2, Config.addrDigit2), (3, Config.addrDigit3), (4, Config.addrDigit4),
   (5, Config.addrDigit5), (6, Config.addrDigit6), (7, Config.addrDigit7), (8, Config.addrDigit8)]

/-- `LETTER[0..4]` as a table (10_state.md R48). -/
def Config.letterTable : List Byte :=
  [Config.letter 0, Config.letter 1, Config.letter 2, Config.letter 3, Config.letter 4]

/-- `reload(u)` (40_delay.md R132, R137). -/
def Config.reload : TUnit → Word16
  | .us => Config.reloadUs
  | .ms => Config.reloadMs

end Sys2Proof
end

