-- ==== Sys2Proof/WellFormed.lean ====
section
/-! DEFINITION. Which instruction terms are in contract (spec/30_encoding.md R114): the operand
ranges of the command surface. Must-be-zero fields (R113) have no term at all. -/

namespace Sys2Proof

/-- A display position is in 1..8 (43_mapper.md R202, R204). -/
def positionInContract (p : Byte) : Bool := 1 ≤ p.toNat && p.toNat ≤ 8

/-- A digit value is in 0..9 (43_mapper.md R202). -/
def digitInContract (d : Byte) : Bool := d.toNat ≤ 9

/-- The range checks of R114. `SETINT` has none that refuses (42_register_protocol.md R188), `n` is
any 16-bit number, and a frame's opcode and value bytes are data (R102). -/
def Instr.wellFormed : Instr → Bool
  | .setDigit value position => digitInContract value && positionInContract position
  | .setGlyph _ position => positionInContract position
  | .initDisp | .clrDisp | .setScan | .setDecode | .setShdn _ | .setTest _ | .setInt _
  | .selfTest | .waitUs _ | .waitMs _ => true
  | .fNoop _ _ | .fDigit1 _ _ | .fDigit2 _ _ | .fDigit3 _ _ | .fDigit4 _ _ | .fDigit5 _ _
  | .fDigit6 _ _ | .fDigit7 _ _ | .fDigit8 _ _ | .fDecode _ _ | .fIntensity _ _
  | .fScanLimit _ _ | .fShutdown _ _ | .fDispTest _ _ => true

end Sys2Proof
end

