-- ==== Sys2Proof/Decode.lean ====
section
/-! DEFINITION. The decoders of both formats, total on their inputs, and after them the encoder
(spec/30_encoding.md R100 to R114). -/

namespace Sys2Proof

/-- `w[23:16]`: `OP` of a command (R108), `o` of a frame (R100). -/
def fieldHi (w : Word24) : Byte := w.extractLsb' 16 8

/-- `w[15:8]`: `A` of a command (R108), `a` of a frame (R100). -/
def fieldMid (w : Word24) : Byte := w.extractLsb' 8 8

/-- `w[7:0]`: `B` of a command (R108), `v` of a frame (R100). -/
def fieldLo (w : Word24) : Byte := w.extractLsb' 0 8

/-- `x :: y :: z`, three bytes as one word, `x` most significant (00_scope.md R9). -/
def mkWord (x y z : Byte) : Word24 := x ++ y ++ z

/-- `n = A :: B`, `A` the high byte (R109). -/
def mkCount (hi lo : Byte) : Word16 := hi ++ lo

/-- `n[15:8]`, the operand byte `A` of a wait (R109). -/
def countHi (n : Word16) : Byte := n.extractLsb' 8 8

/-- `n[7:0]`, the operand byte `B` of a wait (R109). -/
def countLo (n : Word16) : Byte := n.extractLsb' 0 8

/-- The three verdicts of `decode` (R111). -/
inductive CmdVerdict where
  /-- The word is this command, in contract; only this verdict is executed. -/
  | command (i : Instr)
  /-- No row of R110 matches (R112, R113). -/
  | reserved
  /-- A row matches and an operand range check fails (R114). -/
  | outOfContract (i : Instr)
  deriving DecidableEq, Repr

/-- The range checks of R114 on the command a word spells. -/
def checkRanges (i : Instr) : CmdVerdict :=
  if i.wellFormed then .command i else .outOfContract i

/-- A command without operands: `A = B = 0x00` (R113). -/
def decodePlain (i : Instr) (a b : Byte) : CmdVerdict :=
  if a = 0 ∧ b = 0 then checkRanges i else .reserved

/-- A command with a mode in `B[0]`: `A = 0x00`, `B[7:1] = 0` (R109, R113). -/
def decodeMode (i0 i1 : Instr) (a b : Byte) : CmdVerdict :=
  if a = 0 ∧ b = 0 then checkRanges i0
  else if a = 0 ∧ b = 1 then checkRanges i1
  else .reserved

/-- The rows of R110, by the opcode `OP` alone (R115). -/
def decodeFields (op a b : Byte) : CmdVerdict :=
  match op.toNat with
  | 0x01 => decodePlain .initDisp a b
  | 0x02 => decodePlain .clrDisp a b
  | 0x03 => decodePlain .setScan a b
  | 0x04 => decodePlain .setDecode a b
  | 0x05 => decodeMode (.setShdn .shutdown) (.setShdn .normal) a b
  | 0x06 => decodeMode (.setTest .normal) (.setTest .test) a b
  | 0x07 => if a = 0 then checkRanges (.setInt b) else .reserved
  | 0x08 => checkRanges (.setDigit a b)
  | 0x09 => checkRanges (.setGlyph a b)
  | 0x0A => decodePlain .selfTest a b
  | 0x0B => checkRanges (.waitUs (mkCount a b))
  | 0x0C => checkRanges (.waitMs (mkCount a b))
  | _ => .reserved

/-- `decode(w)`, total on 24-bit words (R111). -/
def decodeCmd (w : Word24) : CmdVerdict :=
  decodeFields (fieldHi w) (fieldMid w) (fieldLo w)

/-- What a decoder of wire frames answers (R102). -/
inductive WireVerdict where
  /-- A frame of one of the fourteen kinds. -/
  | frame (i : Instr)
  /-- Three bytes whose address is none of the fourteen: it names no register (93 U8). -/
  | unmapped (a : Byte)
  /-- Not three bytes: the block never sends it (R104, R105 (e)). -/
  | badLength (n : Nat)
  deriving DecidableEq, Repr

/-- The kind of a frame by its address byte alone (R102). -/
def decodeAddress (o a v : Byte) : WireVerdict :=
  if a = Config.addrNoop then .frame (.fNoop o v)
  else if a = Config.addrDigit1 then .frame (.fDigit1 o v)
  else if a = Config.addrDigit2 then .frame (.fDigit2 o v)
  else if a = Config.addrDigit3 then .frame (.fDigit3 o v)
  else if a = Config.addrDigit4 then .frame (.fDigit4 o v)
  else if a = Config.addrDigit5 then .frame (.fDigit5 o v)
  else if a = Config.addrDigit6 then .frame (.fDigit6 o v)
  else if a = Config.addrDigit7 then .frame (.fDigit7 o v)
  else if a = Config.addrDigit8 then .frame (.fDigit8 o v)
  else if a = Config.addrDecode then .frame (.fDecode o v)
  else if a = Config.addrIntensity then .frame (.fIntensity o v)
  else if a = Config.addrScanLimit then .frame (.fScanLimit o v)
  else if a = Config.addrShutdown then .frame (.fShutdown o v)
  else if a = Config.addrDispTest then .frame (.fDispTest o v)
  else .unmapped a

/-- A FRAME24 word, bit 23 first on the wire (R100, R102). -/
def decodeFrame (w : Word24) : WireVerdict :=
  decodeAddress (fieldHi w) (fieldMid w) (fieldLo w)

/-- The bytes of one chip-select window, first on the wire first (R100, R104). -/
def decodeWindow : List Byte → WireVerdict
  | [o, a, v] => decodeFrame (mkWord o a v)
  | bs => .badLength bs.length

/-- `B[0]` of `SETSHDN` (R109). -/
def shdnBit : ShdnMode → Byte
  | .shutdown => 0
  | .normal => 1

/-- `B[0]` of `SETTEST` (R109). -/
def testBit : TestMode → Byte
  | .normal => 0
  | .test => 1

/-- The word of an instruction: `OP`, `A`, `B` of R110 for a command; opcode byte, address, value of
R100 for a frame. -/
def encode : Instr → Word24
  | .initDisp => mkWord 0x01 0 0
  | .clrDisp => mkWord 0x02 0 0
  | .setScan => mkWord 0x03 0 0
  | .setDecode => mkWord 0x04 0 0
  | .setShdn m => mkWord 0x05 0 (shdnBit m)
  | .setTest m => mkWord 0x06 0 (testBit m)
  | .setInt level => mkWord 0x07 0 level
  | .setDigit value position => mkWord 0x08 value position
  | .setGlyph pattern position => mkWord 0x09 pattern position
  | .selfTest => mkWord 0x0A 0 0
  | .waitUs n => mkWord 0x0B (countHi n) (countLo n)
  | .waitMs n => mkWord 0x0C (countHi n) (countLo n)
  | .fNoop o v => mkWord o Config.addrNoop v
  | .fDigit1 o v => mkWord o Config.addrDigit1 v
  | .fDigit2 o v => mkWord o Config.addrDigit2 v
  | .fDigit3 o v => mkWord o Config.addrDigit3 v
  | .fDigit4 o v => mkWord o Config.addrDigit4 v
  | .fDigit5 o v => mkWord o Config.addrDigit5 v
  | .fDigit6 o v => mkWord o Config.addrDigit6 v
  | .fDigit7 o v => mkWord o Config.addrDigit7 v
  | .fDigit8 o v => mkWord o Config.addrDigit8 v
  | .fDecode o v => mkWord o Config.addrDecode v
  | .fIntensity o v => mkWord o Config.addrIntensity v
  | .fScanLimit o v => mkWord o Config.addrScanLimit v
  | .fShutdown o v => mkWord o Config.addrShutdown v
  | .fDispTest o v => mkWord o Config.addrDispTest v

/-- A word of spec/opcode_table.json: the command port's decoder first, and a word that is reserved
there read as a frame (log 23). A row whose operand range check fails is still that row (R111:
`out_of_contract(row)`); `step` refuses to run it. -/
def decodeTableWord (nbits w : Nat) : Option Instr :=
  if nbits ≤ 24 ∧ w < 2 ^ 24 then
    match decodeCmd (BitVec.ofNat 24 w) with
    | .command i => some i
    | .outOfContract i => some i
    | .reserved =>
      match decodeFrame (BitVec.ofNat 24 w) with
      | .frame i => some i
      | .unmapped _ => none
      | .badLength _ => none
  else none

/-- The encoding rows of R110 and R102: for each mnemonic, the mask and the match of
spec/opcode_table.json. -/
def tableRow : Instr → Word24 × Word24
  | .initDisp => (0xFFFFFF, 0x010000)
  | .clrDisp => (0xFFFFFF, 0x020000)
  | .setScan => (0xFFFFFF, 0x030000)
  | .setDecode => (0xFFFFFF, 0x040000)
  | .setShdn _ => (0xFFFFFE, 0x050000)
  | .setTest _ => (0xFFFFFE, 0x060000)
  | .setInt _ => (0xFFFF00, 0x070000)
  | .setDigit _ _ => (0xFF0000, 0x080000)
  | .setGlyph _ _ => (0xFF0000, 0x090000)
  | .selfTest => (0xFFFFFF, 0x0A0000)
  | .waitUs _ => (0xFF0000, 0x0B0000)
  | .waitMs _ => (0xFF0000, 0x0C0000)
  | .fNoop _ _ => (0x00FF00, 0x000000)
  | .fDigit1 _ _ => (0x00FF00, 0x000100)
  | .fDigit2 _ _ => (0x00FF00, 0x000200)
  | .fDigit3 _ _ => (0x00FF00, 0x000300)
  | .fDigit4 _ _ => (0x00FF00, 0x000400)
  | .fDigit5 _ _ => (0x00FF00, 0x000500)
  | .fDigit6 _ _ => (0x00FF00, 0x000600)
  | .fDigit7 _ _ => (0x00FF00, 0x000700)
  | .fDigit8 _ _ => (0x00FF00, 0x000800)
  | .fDecode _ _ => (0x00FF00, 0x000900)
  | .fIntensity _ _ => (0x00FF00, 0x000A00)
  | .fScanLimit _ _ => (0x00FF00, 0x000B00)
  | .fShutdown _ _ => (0x00FF00, 0x000C00)
  | .fDispTest _ _ => (0x00FF00, 0x000F00)

end Sys2Proof
end

