-- ==== Sys2Proof/Machine/State.lean ====
section
/-! DEFINITION. The state of the machine as plain data (spec/10_state.md), the trace events
(00_scope.md R12), the reasons a step can stop, and the state after reset (10_state.md R52). -/

namespace Sys2Proof.Machine

/-- `PHASE` (R23). -/
inductive Phase where
  /-- No command in progress. -/
  | idle
  /-- A command in progress. -/
  | run
  deriving DecidableEq, Repr

/-- `MS`, the seventeen micro-steps (R25, R27). -/
inductive MicroStep where
  | fetch
  | t1
  | t2
  | t3
  | t4
  | t5a
  | t5b
  | t6
  | t7t
  | t7w
  | t8
  | t9
  | wl
  | wc
  | ws
  | wo
  | wx
  deriving DecidableEq, Repr

/-- The closed set of trace events (00_scope.md R12). -/
inductive Event where
  /-- `CMD_ACCEPT(w)` -/
  | cmdAccept (w : Word24)
  /-- `CMD_DONE` -/
  | cmdDone
  /-- `IRQ_OFF` -/
  | irqOff
  /-- `SEL_LOW` -/
  | selLow
  /-- `BYTE(b)`, the only event of the bus peripheral; every other is the block's. -/
  | byte (b : Byte)
  /-- `TC_CLR` -/
  | tcClr
  /-- `RX_FLUSH` -/
  | rxFlush
  /-- `SEL_HIGH` -/
  | selHigh
  /-- `IRQ_ON` -/
  | irqOn
  /-- `TICK(u)` -/
  | tick (u : TUnit)
  /-- `TMR_STOP(u)` -/
  | tmrStop (u : TUnit)
  deriving DecidableEq, Repr

/-- The block's own cells and its sequence position (R20, R25). -/
structure Block where
  /-- `PHASE` (R23). -/
  phase : Phase
  /-- `OP` (R21). -/
  op : Byte
  /-- `A` (R21). -/
  a : Byte
  /-- `B` (R21). -/
  b : Byte
  /-- `PAY[0]`, the address of the frame in transfer (R22). -/
  pay0 : Byte
  /-- `PAY[1]`, its value (R22). -/
  pay1 : Byte
  /-- `U`, the unit of the wait in progress (R22). -/
  u : TUnit
  /-- `FI`, the index of the current item (R25). -/
  fi : Nat
  /-- `MS`, the current micro-step (R25). -/
  ms : MicroStep
  /-- `BI`, the index of the next byte to enqueue (R25). -/
  bi : Nat
  /-- `DN`, the delay iterations still to run (R25). -/
  dn : Word16
  deriving DecidableEq, Repr

/-- The bus interface cells and the hidden state of the bus peripheral (R30, R41). -/
structure Bus where
  /-- `SEL`: chip-select asserted (R31). -/
  sel : Bool
  /-- `TXQ`, the output FIFO, first to leave first (R32). -/
  txq : List Byte
  /-- `SHIFT`, the byte being shifted out, if any (R41). -/
  shift : Option Byte
  /-- `RXQ`, what the receive path accumulated (R41). -/
  rxq : List Byte
  /-- `TC`, transfer complete (R36). -/
  tc : Bool
  /-- `RFL`, receive flush: set is trigger, cleared is done (R37). -/
  rfl : Bool
  /-- `IRQ_EN`, the bus peripheral's interrupt enable (R38). -/
  irqEn : Bool
  deriving DecidableEq, Repr

/-- The timer interface cells (R42 to R44). -/
structure Timer where
  /-- `TMR_RLH` (R42). -/
  rlh : Byte
  /-- `TMR_RLL` (R42). -/
  rll : Byte
  /-- `TMR_RUN` (R43). -/
  run : Bool
  /-- `OVF` (R44). -/
  ovf : Bool
  deriving DecidableEq, Repr

/-- The command port as the host drives it (R24). -/
structure Port where
  /-- `CMD_VALID`: a word is offered and not yet taken. -/
  valid : Bool
  /-- `CMD_WORD`. -/
  word : Word24
  deriving DecidableEq, Repr

/-- The slave register space as written so far: the image of 20_memory.md R86, addresses strictly
rising (`Memory.wf`). An address that is not listed is "not written". -/
abbrev Memory := List Host.Cell

/-- The whole machine. -/
structure State where
  /-- The block's cells (R20). -/
  block : Block
  /-- The bus cells (R30, R41). -/
  bus : Bus
  /-- The timer cells (R42). -/
  timer : Timer
  /-- The command port (R24). -/
  port : Port
  /-- The words the host has still to offer, first first (log 3). -/
  program : List Word24
  /-- `img`, the slave register image (20_memory.md R86). -/
  img : Memory
  /-- `TRACE` (R51; 00_scope.md R12), oldest event first. -/
  trace : List Event
  /-- The mark that an out-of-range intensity was written (42_register_protocol.md R188; log 14). -/
  intMark : Bool
  /-- The MODEL's own: the moves already chosen, next first (log 1). -/
  sched : List Move
  /-- The MODEL's own: how many moves were drawn from `Config.freeMove` (log 1). -/
  moveDraws : Nat
  /-- The MODEL's own: how many bytes were drawn from `Config.freeByte` (log 19). -/
  rxDraws : Nat
  deriving DecidableEq, Repr

/-- Why a step stops with a fault. The block itself raises no exception (60_exceptions.md R240): each
of these is a state of the sequence position that the spec says is never reached and for which it
gives no effect (log 17). All are safe: where the spec says nothing the machine stops. -/
inductive Fault where
  /-- Raised by FETCH when the latched command has no item at `FI` and `FI` is not the length of its
  list, or no list at all (44_sequencer.md R216). Safe. -/
  | noItemAtFetch
  /-- Raised by T4 when `BI` is past the last byte of the frame (41_transfer.md R154, R162). Safe. -/
  | byteIndexPastFrame
  /-- Raised by WO when `DN` is 0 (40_delay.md R135: "reached only with `DN >= 1`"). Safe. -/
  | delayCountZero
  deriving DecidableEq, Repr

/-- Why a step is refused: the `refuse` of 00_scope.md R14. -/
inductive Refusal where
  /-- Raised by exec's arm of an instruction that has no meaning yet. Safe. No arm uses it. -/
  | notModelled (mnemonic : String)
  /-- Raised by ACCEPT on a word that spells no command (30_encoding.md R112, R113). Safe. -/
  | reservedWord (w : Word24)
  /-- Raised by ACCEPT, and by the meaning itself, on a command with an operand out of contract
  (30_encoding.md R114; 43_mapper.md R202, R204). Safe. -/
  | outOfContract (mnemonic : String)
  deriving DecidableEq, Repr

/-- The block after reset: `PHASE = IDLE`; the spec gives its other cells no value (R52) and the
model's are a DESIGN CHOICE (log 9). -/
def Block.reset : Block where
  phase := .idle
  op := 0
  a := 0
  b := 0
  pay0 := 0
  pay1 := 0
  u := .us
  fi := 0
  ms := .fetch
  bi := 0
  dn := 0

/-- The bus after reset: the launch premises `SEL = 0`, `TXQ = []`, `SHIFT = none` (R52; log 11); the
others are unspecified and the model's values a DESIGN CHOICE (log 10). -/
def Bus.reset : Bus where
  sel := false
  txq := []
  shift := none
  rxq := []
  tc := false
  rfl := false
  irqEn := false

/-- The timer after reset: unspecified (R52), DESIGN CHOICE (log 10). -/
def Timer.reset : Timer where
  rlh := 0
  rll := 0
  run := false
  ovf := false

/-- The machine right after reset (R52; 70_reset_and_hazards.md R280, R281). -/
def State.reset : State where
  block := Block.reset
  bus := Bus.reset
  timer := Timer.reset
  port := { valid := false, word := 0 }
  program := []
  img := []
  trace := []
  intMark := false
  sched := []
  moveDraws := 0
  rxDraws := 0

end Sys2Proof.Machine
end

