-- ==== Sys2Proof/Machine/Flags.lean ====
section
/-! DEFINITION. The flags that have no state of their own (spec/10_state.md R24, R33 to R35). The
machine has no arithmetic flags (40_delay.md R140; 42_register_protocol.md R189). -/

namespace Sys2Proof.Machine

/-- `CMD_READY`, defined as `PHASE = IDLE` (R24). -/
def cmdReady (s : State) : Bool := s.block.phase = .idle

/-- `TXCNT`, the "drained" count: bytes enqueued and not yet in the shift register (R34). -/
def txCnt (s : State) : Nat := s.bus.txq.length

/-- `TXNF` ("has space"): 1 iff `|TXQ| < FIFO_DEPTH` (R33). -/
def txNf (s : State) : Bool := s.bus.txq.length < Config.fifoDepth

/-- `SBUSY`: 1 iff `SHIFT` holds a byte (R35). -/
def sBusy (s : State) : Bool := s.bus.shift.isSome

end Sys2Proof.Machine
end

