-- ==== Sys2Proof/Machine/Operands.lean ====
section
/-! DEFINITION. Every operand form: table reads by an operand (spec/43_mapper.md R200; 10_state.md
R46 to R48), the bytes of a frame (41_transfer.md R162), the reload bytes (40_delay.md R132). The
assembly of operands from the command word (30_encoding.md R109) stands in Decode.lean. -/

namespace Sys2Proof.Machine

/-- `ROM(GLYPH, d)`; indices outside 0..9 do not exist (10_state.md R46). -/
def glyphOf (d : Byte) : Option Byte := Config.glyphTable[d.toNat]?

/-- `ROM(DIGIT_ADDR, p)`; indices outside 1..8 do not exist (10_state.md R47; 20_memory.md R79). -/
def digitAddrOf (p : Byte) : Option Byte := Config.digitAddrTable.lookup p.toNat

/-- `DIGIT_ADDR[1..8]` in ascending position order. -/
def digitAddrs : List Byte := Config.digitAddrTable.map (·.2)

/-- `byte(k)`: the opcode, then `PAY[0]`, then `PAY[1]`; no other index exists (41_transfer.md
R162). -/
def frameByte (s : State) : Nat → Option Byte
  | 0 => some Config.opcodeWriteBuffer
  | 1 => some s.block.pay0
  | 2 => some s.block.pay1
  | _ => none

/-- `reload(u)[15:8]` (40_delay.md R132). -/
def reloadHi (u : TUnit) : Byte := (Config.reload u).extractLsb' 8 8

/-- `reload(u)[7:0]` (40_delay.md R132). -/
def reloadLo (u : TUnit) : Byte := (Config.reload u).extractLsb' 0 8

end Sys2Proof.Machine
end

