-- ==== Sys2Proof/Machine/Trace.lean ====
section
/-! DEFINITION. What a model observes: the pure functions of the trace (spec/00_scope.md R13;
20_memory.md R63, R86). Nothing in the hardware reads them, except that the slave latches the window
`openWindow` gives at SEL_HIGH (20_memory.md R67). -/

namespace Sys2Proof.Machine

/-- Where the scan of R13 for windows stands. -/
structure WindowScan where
  /-- The bytes of the open window, if one is open. -/
  window : Option (List Byte)
  /-- The windows closed so far, oldest first. -/
  closed : List (List Byte)
  /-- How many stray bytes were seen. -/
  strays : Nat
  deriving DecidableEq, Repr

/-- No window open, none closed, no stray byte. -/
def WindowScan.start : WindowScan := { window := none, closed := [], strays := 0 }

/-- One event of the scan of R13. -/
def WindowScan.next (w : WindowScan) : Event → WindowScan
  | .selLow => { w with window := some [] }
  | .byte b =>
    match w.window with
    | some bs => { w with window := some (bs ++ [b]) }
    | none => { w with strays := w.strays + 1 }
  | .selHigh =>
    match w.window with
    | some bs => { w with window := none, closed := w.closed ++ [bs] }
    | none => w
  | .cmdAccept _ => w
  | .cmdDone => w
  | .irqOff => w
  | .tcClr => w
  | .rxFlush => w
  | .irqOn => w
  | .tick _ => w
  | .tmrStop _ => w

/-- The scan of a whole trace. -/
def scanWindows (tr : List Event) : WindowScan := tr.foldl WindowScan.next WindowScan.start

/-- `windows(TRACE)` (R13). -/
def windows (tr : List Event) : List (List Byte) := (scanWindows tr).closed

/-- The bytes shifted out since the SEL_LOW of the open window, if one is open (R13). -/
def openWindow (tr : List Event) : Option (List Byte) := (scanWindows tr).window

/-- How many stray bytes the trace holds (R13). -/
def strayBytes (tr : List Event) : Nat := (scanWindows tr).strays

/-- An item of `view(TRACE)` (R13). -/
inductive ViewItem where
  /-- `FRAME(bs)`, one closed window. -/
  | frame (bs : List Byte)
  /-- `WAIT(u, n)`, one TMR_STOP with the ticks before it. -/
  | wait (u : TUnit) (n : Nat)
  deriving DecidableEq, Repr

/-- Where the scan for `view` stands. -/
structure ViewScan where
  /-- The bytes of the open window, if one is open. -/
  window : Option (List Byte)
  /-- `TICK(US)` events since the last TMR_STOP. -/
  usTicks : Nat
  /-- `TICK(MS)` events since the last TMR_STOP. -/
  msTicks : Nat
  /-- The view items so far, oldest first. -/
  items : List ViewItem
  deriving DecidableEq, Repr

/-- Nothing seen. -/
def ViewScan.start : ViewScan := { window := none, usTicks := 0, msTicks := 0, items := [] }

/-- One event of the scan for `view` (R13). -/
def ViewScan.next (w : ViewScan) : Event → ViewScan
  | .selLow => { w with window := some [] }
  | .byte b =>
    match w.window with
    | some bs => { w with window := some (bs ++ [b]) }
    | none => w
  | .selHigh =>
    match w.window with
    | some bs => { w with window := none, items := w.items ++ [.frame bs] }
    | none => w
  | .tick .us => { w with usTicks := w.usTicks + 1 }
  | .tick .ms => { w with msTicks := w.msTicks + 1 }
  | .tmrStop .us => { w with usTicks := 0, msTicks := 0, items := w.items ++ [.wait .us w.usTicks] }
  | .tmrStop .ms => { w with usTicks := 0, msTicks := 0, items := w.items ++ [.wait .ms w.msTicks] }
  | .cmdAccept _ => w
  | .cmdDone => w
  | .irqOff => w
  | .tcClr => w
  | .rxFlush => w
  | .irqOn => w

/-- `view(TRACE)` (R13). -/
def view (tr : List Event) : List ViewItem := (tr.foldl ViewScan.next ViewScan.start).items

/-- The (address, value) a slave keeps of a window: the last two bytes, none of a shorter one. Of the
three-byte window the block sends, the second and the third (20_memory.md R86; PRESUMED for other
lengths, log 12). -/
def windowWrite (bs : List Byte) : Option (Byte × Byte) :=
  match bs.reverse with
  | v :: a :: _ => some (a, v)
  | _ => none

/-- The bits of one byte in the order they travel, most significant first (20_memory.md R63). -/
def byteBits (b : Byte) : List Bool :=
  [b.getLsbD 7, b.getLsbD 6, b.getLsbD 5, b.getLsbD 4, b.getLsbD 3, b.getLsbD 2, b.getLsbD 1,
    b.getLsbD 0]

/-- The serial stream of a window: its bytes in order, each most significant bit first (R62, R63). -/
def wireBits (bs : List Byte) : List Bool := bs.flatMap byteBits

end Sys2Proof.Machine
end

