-- ==== Sys2Proof/Machine/Ops.lean ====
section
/-! DEFINITION. The named operations the meanings and the micro-steps are made of: the slave register
space, the trace, the schedule, the command latch. The machine has no exception, no trap and no
return from one (spec/60_exceptions.md R240, R247, R248), so there is no operation that takes one. -/

namespace Sys2Proof.Machine

/-- A step's outcome on this machine. -/
abbrev Result := Host.Outcome State Fault Refusal

/-! ### The slave register space (20_memory.md R60, R86) -/

/-- The canonical form: addresses strictly rising, all in the 8-bit space. -/
def Memory.wf (m : Memory) : Bool :=
  decide (m.Pairwise fun x y => x.1 < y.1) && m.all fun x => x.1 < 256

/-- What register `a` was last written, `none` for "not written" (R86). -/
def Memory.read (m : Memory) (a : Byte) : Option Byte :=
  match m with
  | [] => none
  | (k, x) :: rest => if k = a.toNat then some x else Memory.read rest a

/-- `img[a] <- v` (R86), keeping the canonical form. -/
def Memory.write (m : Memory) (a v : Byte) : Memory :=
  match m with
  | [] => [(a.toNat, v)]
  | (k, x) :: rest =>
    if a.toNat < k then (a.toNat, v) :: (k, x) :: rest
    else if a.toNat = k then (k, v) :: rest
    else (k, x) :: Memory.write rest a v

/-- One closed window's effect on the image (R86). -/
def imageStep (m : Memory) (bs : List Byte) : Memory :=
  match windowWrite bs with
  | some (a, v) => m.write a v
  | none => m

/-- `img(TRACE)`, the pure function of the trace (R86). -/
def imageOf (tr : List Event) : Memory := (windows tr).foldl imageStep []

/-- The slave latches value `v` in register `a`: `img[a] <- v` (R67, R86). -/
def latchRegister (a v : Byte) (s : State) : State := { s with img := s.img.write a v }

/-- Sets the out-of-range mark if `level` is above 15 (42_register_protocol.md R188; log 14). -/
def markIntensity (level : Byte) (s : State) : State :=
  { s with intMark := s.intMark || 15 < level.toNat }

/-- The slave latches an (address, value) pair: the register takes the value, and a write of the
intensity register above 15 is marked (R74, R86; 42_register_protocol.md R188; log 14). -/
def latchPair (a v : Byte) (s : State) : State :=
  if a = Config.addrIntensity then markIntensity v (latchRegister a v s) else latchRegister a v s

/-- What the slave does with the window that closes: the last two bytes are recorded, a shorter window
changes nothing (R86; 93 U8). -/
def latchWindow (w : Option (List Byte)) (s : State) : State :=
  match w with
  | some bs =>
    match windowWrite bs with
    | some (a, v) => latchPair a v s
    | none => s
  | none => s

/-! ### The trace and the sequence position -/

/-- `emit(e)` (00_scope.md R10). -/
def emit (e : Event) (s : State) : State := { s with trace := s.trace ++ [e] }

/-- `MS <- m` (10_state.md R25). -/
def setMs (m : MicroStep) (s : State) : State := { s with block.ms := m }

/-- The end of an item: `FI <- FI + 1; MS <- FETCH` (10_state.md R25; R216: the last micro-step of an
item advances `FI`). -/
def endItem (s : State) : State :=
  { s with block.fi := s.block.fi + 1, block.ms := .fetch }

/-- No enabled step: the block stands where it is (10_state.md R26; 20_memory.md R84). -/
def hold (s : State) : Result := .next s

/-! ### The schedule (log 1) -/

/-- The move to take next: the schedule's first, a free one when the schedule is empty. -/
def nextMove (s : State) : Move :=
  match s.sched with
  | m :: _ => m
  | [] => Config.freeMove s.moveDraws

/-- The schedule after that move is taken. -/
def takeMove (s : State) : State :=
  match s.sched with
  | _ :: ms => { s with sched := ms }
  | [] => { s with moveDraws := s.moveDraws + 1 }

/-! ### Taking a command (10_state.md R24) -/

/-- The ACCEPT step's writes for the word `w`: the command latch, the sequence position, the event. -/
def latchCommand (w : Word24) (s : State) : State :=
  emit (.cmdAccept w)
    { s with
      block.op := fieldHi w
      block.a := fieldMid w
      block.b := fieldLo w
      block.fi := 0
      block.ms := .fetch
      block.phase := .run }

/-- A command given to the machine: taken when the block is idle, refused when an operand is out of
contract (R24; 30_encoding.md R114), not taken while a command runs (60_exceptions.md R241:
"no step; the host holds"; log 18). -/
def acceptCommand (i : Instr) (s : State) : Result :=
  match s.block.phase with
  | .run => hold s
  | .idle =>
    if i.wellFormed then .next (latchCommand (encode i) s)
    else .refused (.outOfContract i.mnemonic)

/-- The host takes its word away once it is accepted (log 3). -/
def withdrawOffer (s : State) : State := { s with port.valid := false }

end Sys2Proof.Machine
end

