-- ==== Sys2Proof/Machine/Frames.lean ====
section
/-! DEFINITION. The frame kinds (spec/30_encoding.md R102): what the slave does with a frame of each
kind when it latches it at SEL_HIGH, "the register rule of 20_memory.md (rules R71 to R77) together
with the image update of 20_memory.md rule R86". The opcode byte `o` falls out of the slave's shift
register and has no effect (R85, R86; log 12). `step` runs these at the block's T8 (log 13). -/

namespace Sys2Proof.Machine

/-- `F.NOOP`: the no-op register, named by the source and written by no command (20_memory.md R72). -/
def execNoopFrame (_o v : Byte) (s : State) : Result :=
  .next (latchRegister Config.addrNoop v s)

/-- `F.DIGIT1`: digit register 1 takes the glyph pattern of position 1 (20_memory.md R71). -/
def execDigit1Frame (_o v : Byte) (s : State) : Result :=
  .next (latchRegister Config.addrDigit1 v s)

/-- `F.DIGIT2`: digit register 2 takes the glyph pattern of position 2 (20_memory.md R71). -/
def execDigit2Frame (_o v : Byte) (s : State) : Result :=
  .next (latchRegister Config.addrDigit2 v s)

/-- `F.DIGIT3`: digit register 3 takes the glyph pattern of position 3 (20_memory.md R71). -/
def execDigit3Frame (_o v : Byte) (s : State) : Result :=
  .next (latchRegister Config.addrDigit3 v s)

/-- `F.DIGIT4`: digit register 4 takes the glyph pattern of position 4 (20_memory.md R71). -/
def execDigit4Frame (_o v : Byte) (s : State) : Result :=
  .next (latchRegister Config.addrDigit4 v s)

/-- `F.DIGIT5`: digit register 5 takes the glyph pattern of position 5 (20_memory.md R71). -/
def execDigit5Frame (_o v : Byte) (s : State) : Result :=
  .next (latchRegister Config.addrDigit5 v s)

/-- `F.DIGIT6`: digit register 6 takes the glyph pattern of position 6 (20_memory.md R71). -/
def execDigit6Frame (_o v : Byte) (s : State) : Result :=
  .next (latchRegister Config.addrDigit6 v s)

/-- `F.DIGIT7`: digit register 7 takes the glyph pattern of position 7 (20_memory.md R71). -/
def execDigit7Frame (_o v : Byte) (s : State) : Result :=
  .next (latchRegister Config.addrDigit7 v s)

/-- `F.DIGIT8`: digit register 8 takes the glyph pattern of position 8 (20_memory.md R71). -/
def execDigit8Frame (_o v : Byte) (s : State) : Result :=
  .next (latchRegister Config.addrDigit8 v s)

/-- `F.DECODE`: the decode-mode register (20_memory.md R73). -/
def execDecodeFrame (_o v : Byte) (s : State) : Result :=
  .next (latchRegister Config.addrDecode v s)

/-- `F.INTENSITY`: the intensity register (20_memory.md R74). "Values above 15" have an undefined
effect on the brightness shown, which is not modelled; the byte is recorded and the run is marked
(42_register_protocol.md R188; log 14). -/
def execIntensityFrame (_o v : Byte) (s : State) : Result :=
  .next (markIntensity v (latchRegister Config.addrIntensity v s))

/-- `F.SCANLIMIT`: the scan-limit register (20_memory.md R75). -/
def execScanLimitFrame (_o v : Byte) (s : State) : Result :=
  .next (latchRegister Config.addrScanLimit v s)

/-- `F.SHUTDOWN`: the shutdown register (20_memory.md R76). -/
def execShutdownFrame (_o v : Byte) (s : State) : Result :=
  .next (latchRegister Config.addrShutdown v s)

/-- `F.DISPTEST`: the display-test register; no digit register changes (20_memory.md R77). -/
def execDispTestFrame (_o v : Byte) (s : State) : Result :=
  .next (latchRegister Config.addrDispTest v s)

end Sys2Proof.Machine
end

