-- ==== Sys2Proof/Machine/Delay.lean ====
section
/-! DEFINITION. The delay family (spec/40_delay.md): WAITUS, WAITMS and the five micro-steps of a
WAIT(u, n) item. They touch no bus cell (10_state.md R45). -/

namespace Sys2Proof.Machine

/-- `ITEMS(WAITUS n)` (R130). -/
def itemsWaitUs (n : Word16) : List Item := [.wait .us n]

/-- `WAITUS n` (R130). -/
def execWaitUs (n : Word16) (s : State) : Result := acceptCommand (.waitUs n) s

/-- `ITEMS(WAITMS n)` (R131). -/
def itemsWaitMs (n : Word16) : List Item := [.wait .ms n]

/-- `WAITMS n` (R131). -/
def execWaitMs (n : Word16) (s : State) : Result := acceptCommand (.waitMs n) s

/-- `WL`, load both reload bytes (R132). -/
def stepWL (s : State) : Result :=
  .next (setMs .wc { s with timer.rlh := reloadHi s.block.u, timer.rll := reloadLo s.block.u })

/-- `WC`, lower the overflow flag (R133). -/
def stepWC (s : State) : Result := .next (setMs .ws { s with timer.ovf := false })

/-- `WS`, start the counter (R134). -/
def stepWS (s : State) : Result := .next (setMs .wo { s with timer.run := true })

/-- `WO`, wait for the overflow: one TICK and `DN <- DN - 1`, then the next iteration or the stop
(R135). `DN = 0` is never reached here (log 17). -/
def stepWO (s : State) : Result :=
  if s.timer.ovf then
    if s.block.dn = 0 then .fault .delayCountZero
    else
      .next (emit (.tick s.block.u)
        (setMs (if s.block.dn - 1 = 0 then .wx else .wl) { s with block.dn := s.block.dn - 1 }))
  else hold s

/-- `WX`, stop the counter and end the item (R136). -/
def stepWX (s : State) : Result :=
  .next (emit (.tmrStop s.block.u) (endItem { s with timer.run := false }))

end Sys2Proof.Machine
end

