-- ==== Sys2Proof/Machine/Mapper.lean ====
section
/-! DEFINITION. The mapper family (spec/43_mapper.md): SETDIGIT, SETGLYPH. Each resolves its position
through the table DIGIT_ADDR and writes one digit register (R200). Out-of-contract operands have no
table entry and are refused (R202, R204). -/

namespace Sys2Proof.Machine

/-- `ITEMS(SETDIGIT value, position) = [FRAME(DIGIT_ADDR[position], GLYPH[value])]` (R201); no list
where a table has no entry (R202). -/
def itemsSetDigit (value position : Byte) : Option (List Item) :=
  match digitAddrOf position, glyphOf value with
  | some a, some g => some [.frame a g]
  | _, _ => none

/-- `SETDIGIT value, position` (R201, R202). -/
def execSetDigit (value position : Byte) (s : State) : Result :=
  acceptCommand (.setDigit value position) s

/-- `ITEMS(SETGLYPH pattern, position) = [FRAME(DIGIT_ADDR[position], pattern)]` (R203); no list where
the table has no entry (R204). -/
def itemsSetGlyph (pattern position : Byte) : Option (List Item) :=
  match digitAddrOf position with
  | some a => some [.frame a pattern]
  | none => none

/-- `SETGLYPH pattern, position` (R203, R204). -/
def execSetGlyph (pattern position : Byte) (s : State) : Result :=
  acceptCommand (.setGlyph pattern position) s

end Sys2Proof.Machine
end

