-- ==== Sys2Proof/Machine/Protocol.lean ====
section
/-! DEFINITION. The register protocol family (spec/42_register_protocol.md): SETSCAN, SETDECODE,
SETSHDN, SETTEST, SETINT. Each is one register write: its item list has length one (R180), and its
meaning is to be taken by the block, which then executes that list. -/

namespace Sys2Proof.Machine

/-- `ITEMS(SETSCAN)` (R181). -/
def itemsSetScan : List Item := [.frame Config.addrScanLimit Config.valScanAll8]

/-- `SETSCAN` (R181). -/
def execSetScan (s : State) : Result := acceptCommand .setScan s

/-- `ITEMS(SETDECODE)` (R182). -/
def itemsSetDecode : List Item := [.frame Config.addrDecode Config.valNoDecode]

/-- `SETDECODE` (R182). -/
def execSetDecode (s : State) : Result := acceptCommand .setDecode s

/-- `ITEMS(SETSHDN mode)` (R183). -/
def itemsSetShdn (mode : ShdnMode) : List Item := [.frame Config.addrShutdown (Config.valShdn mode)]

/-- `SETSHDN mode` (R183). -/
def execSetShdn (mode : ShdnMode) (s : State) : Result := acceptCommand (.setShdn mode) s

/-- `ITEMS(SETTEST mode)` (R185). -/
def itemsSetTest (mode : TestMode) : List Item := [.frame Config.addrDispTest (Config.valTest mode)]

/-- `SETTEST mode` (R185). -/
def execSetTest (mode : TestMode) (s : State) : Result := acceptCommand (.setTest mode) s

/-- `ITEMS(SETINT level)`: all eight bits of the level, nothing clamped or masked (R187, R188). -/
def itemsSetInt (level : Byte) : List Item := [.frame Config.addrIntensity level]

/-- `SETINT level` (R187). A level above 15 is executed unchanged and the run is marked (R188; log
14); a command that is not taken marks nothing. -/
def execSetInt (level : Byte) (s : State) : Result :=
  acceptCommand (.setInt level) (if cmdReady s then markIntensity level s else s)

end Sys2Proof.Machine
end

