-- ==== Sys2Proof/Machine/Sequencer.lean ====
section
/-! DEFINITION. The sequencer family (spec/44_sequencer.md): INITDISP, CLRDISP, SELFTEST, the
expansion ITEMS of every command and the dispatch micro-step FETCH. -/

namespace Sys2Proof.Machine

/-- `CLEAR = [FRAME(DIGIT_ADDR[p], BLANK) | p = 1..8]` (R215). -/
def clearItems : List Item := digitAddrs.map fun a => .frame a Config.blank

/-- `HOLD = [WAIT(MS, 500)]` (R215). -/
def holdItems : List Item := [.wait .ms Config.holdMs]

/-- `ITEMS(CLRDISP)` (R221). -/
def itemsClrDisp : List Item := clearItems

/-- `CLRDISP` (R221). -/
def execClrDisp (s : State) : Result := acceptCommand .clrDisp s

/-- `ITEMS(INITDISP)`: thirteen frames in this order (R215, R220, R224). -/
def itemsInitDisp : List Item :=
  [.frame Config.addrScanLimit Config.valScanAll8,
   .frame Config.addrDecode Config.valNoDecode,
   .frame Config.addrShutdown (Config.valShdn .normal),
   .frame Config.addrDispTest (Config.valTest .normal)]
  ++ clearItems
  ++ [.frame Config.addrIntensity Config.intensityDefault]

/-- `INITDISP` (R220). -/
def execInitDisp (s : State) : Result := acceptCommand .initDisp s

/-- Digits 0 to 7 at positions 1 to 8 (R222). -/
def selfTestDigits : List Item := List.zipWith Item.frame digitAddrs (Config.glyphTable.take 8)

/-- Digits 8 and 9 at positions 1 and 2 (R222). -/
def selfTestLastDigits : List Item :=
  List.zipWith Item.frame (digitAddrs.take 2) (Config.glyphTable.drop 8)

/-- The five letters at positions 3 to 7 (R222; 10_state.md R48). -/
def selfTestLetters : List Item :=
  List.zipWith Item.frame ((digitAddrs.drop 2).take 5) Config.letterTable

/-- `ITEMS(SELFTEST)`: thirty-five items (R215, R222, R223). -/
def itemsSelfTest : List Item :=
  selfTestDigits ++ holdItems ++ clearItems ++ holdItems
  ++ selfTestLastDigits ++ selfTestLetters
  ++ holdItems ++ clearItems ++ holdItems

/-- `SELFTEST` (R222). -/
def execSelfTest (s : State) : Result := acceptCommand .selfTest s

/-- `ITEMS`, defined for every in-contract command and depending only on it (R215). A frame is no
command and has no list. -/
def items : Instr → Option (List Item)
  | .initDisp => some itemsInitDisp
  | .clrDisp => some itemsClrDisp
  | .setScan => some itemsSetScan
  | .setDecode => some itemsSetDecode
  | .setShdn mode => some (itemsSetShdn mode)
  | .setTest mode => some (itemsSetTest mode)
  | .setInt level => some (itemsSetInt level)
  | .setDigit value position => itemsSetDigit value position
  | .setGlyph pattern position => itemsSetGlyph pattern position
  | .selfTest => some itemsSelfTest
  | .waitUs n => some (itemsWaitUs n)
  | .waitMs n => some (itemsWaitMs n)
  | .fNoop _ _ | .fDigit1 _ _ | .fDigit2 _ _ | .fDigit3 _ _ | .fDigit4 _ _ | .fDigit5 _ _
  | .fDigit6 _ _ | .fDigit7 _ _ | .fDigit8 _ _ | .fDecode _ _ | .fIntensity _ _
  | .fScanLimit _ _ | .fShutdown _ _ | .fDispTest _ _ => none

/-- `ITEMS(OP, A, B)` of a command word (R215); none where the word is no in-contract command. -/
def itemsOfWord (w : Word24) : Option (List Item) :=
  match decodeCmd w with
  | .command i => items i
  | .reserved => none
  | .outOfContract _ => none

/-- The word in the command latch, `OP :: A :: B` (10_state.md R21). -/
def latchedWord (s : State) : Word24 := mkWord s.block.op s.block.a s.block.b

/-- `L = ITEMS(OP, A, B)` of the latched command (R216). -/
def currentItems (s : State) : Option (List Item) := itemsOfWord (latchedWord s)

/-- Loads an item: the payload of a frame, or the unit and count of a wait, which goes straight to
its stop when the count is 0 (R216). -/
def loadItem (it : Item) (s : State) : State :=
  match it with
  | .frame a v => setMs .t1 { s with block.pay0 := a, block.pay1 := v }
  | .wait u n => setMs (if n = 0 then .wx else .wl) { s with block.u := u, block.dn := n }

/-- The end of a command: CMD_DONE and `PHASE <- IDLE` (R216). -/
def finishCommand (s : State) : State := emit .cmdDone { s with block.phase := .idle }

/-- `FETCH` (R216). A latch without a list, and an `FI` past its end, are never reached (log 17). -/
def stepFetch (s : State) : Result :=
  match currentItems s with
  | none => .fault .noItemAtFetch
  | some l =>
    if s.block.fi = l.length then .next (finishCommand s)
    else
      match l[s.block.fi]? with
      | some it => .next (loadItem it s)
      | none => .fault .noItemAtFetch

end Sys2Proof.Machine
end

