-- ==== Sys2Proof/Machine/Dispatch.lean ====
section
/-! DEFINITION. exec: one arm per instruction, each one direct call of its meaning. -/

namespace Sys2Proof.Machine

def exec (i : Instr) (s : State) : Host.Outcome State Fault Refusal :=
  match i with
  | .initDisp => Sys2Proof.Machine.execInitDisp s
  | .clrDisp => Sys2Proof.Machine.execClrDisp s
  | .setScan => Sys2Proof.Machine.execSetScan s
  | .setDecode => Sys2Proof.Machine.execSetDecode s
  | .setShdn mode => Sys2Proof.Machine.execSetShdn mode s
  | .setTest mode => Sys2Proof.Machine.execSetTest mode s
  | .setInt level => Sys2Proof.Machine.execSetInt level s
  | .setDigit value position => Sys2Proof.Machine.execSetDigit value position s
  | .setGlyph pattern position => Sys2Proof.Machine.execSetGlyph pattern position s
  | .selfTest => Sys2Proof.Machine.execSelfTest s
  | .waitUs n => Sys2Proof.Machine.execWaitUs n s
  | .waitMs n => Sys2Proof.Machine.execWaitMs n s
  | .fNoop o v => Sys2Proof.Machine.execNoopFrame o v s
  | .fDigit1 o v => Sys2Proof.Machine.execDigit1Frame o v s
  | .fDigit2 o v => Sys2Proof.Machine.execDigit2Frame o v s
  | .fDigit3 o v => Sys2Proof.Machine.execDigit3Frame o v s
  | .fDigit4 o v => Sys2Proof.Machine.execDigit4Frame o v s
  | .fDigit5 o v => Sys2Proof.Machine.execDigit5Frame o v s
  | .fDigit6 o v => Sys2Proof.Machine.execDigit6Frame o v s
  | .fDigit7 o v => Sys2Proof.Machine.execDigit7Frame o v s
  | .fDigit8 o v => Sys2Proof.Machine.execDigit8Frame o v s
  | .fDecode o v => Sys2Proof.Machine.execDecodeFrame o v s
  | .fIntensity o v => Sys2Proof.Machine.execIntensityFrame o v s
  | .fScanLimit o v => Sys2Proof.Machine.execScanLimitFrame o v s
  | .fShutdown o v => Sys2Proof.Machine.execShutdownFrame o v s
  | .fDispTest o v => Sys2Proof.Machine.execDispTestFrame o v s

end Sys2Proof.Machine
end

