-- ==== Sys2Proof/Machine/Environment.lean ====
section
/-! DEFINITION. The steps of the agents around the block: the bus peripheral's PE1 to PE3
(spec/20_memory.md R81 to R83), the timer's TE1 (60_exceptions.md R262) and the host's offer
(10_state.md R24). Each changes nothing when it is not enabled (log 2). -/

namespace Sys2Proof.Machine

/-- PE1, load the shift register: enabled iff `SHIFT = none` and `TXQ` holds a byte (R81). -/
def stepPE1 (s : State) : State :=
  match s.bus.shift, s.bus.txq with
  | none, b :: rest => { s with bus.shift := some b, bus.txq := rest }
  | _, _ => s

/-- PE2, finish shifting a byte: enabled iff `SHIFT` holds one (R82). The received byte is a free value
(log 19). -/
def stepPE2 (s : State) : State :=
  match s.bus.shift with
  | some b =>
    emit (.byte b)
      { s with
        bus.shift := none
        bus.tc := true
        bus.rxq := s.bus.rxq ++ [Config.freeByte s.rxDraws]
        rxDraws := s.rxDraws + 1 }
  | none => s

/-- PE3, finish a receive flush: enabled iff `RFL = 1` (R83). -/
def stepPE3 (s : State) : State :=
  if s.bus.rfl then { s with bus.rxq := [], bus.rfl := false } else s

/-- TE1, the running counter overflows: enabled iff `TMR_RUN = 1` and `OVF = 0` (R262). -/
def stepTE1 (s : State) : State :=
  if s.timer.run && !s.timer.ovf then { s with timer.ovf := true } else s

/-- The host offers its next word: enabled iff it has one and no offer stands at the port, since an
offer may be neither changed nor dropped before it is taken (10_state.md R24; log 3). -/
def stepHost (s : State) : State :=
  match s.port.valid, s.program with
  | false, w :: rest => { s with port.valid := true, port.word := w, program := rest }
  | _, _ => s

end Sys2Proof.Machine
end

