-- ==== Sys2Proof/Machine/Transfer.lean ====
section
/-! DEFINITION. The serial transfer engine (spec/41_transfer.md): the thirteen micro-steps of a
FRAME(a, v) item. They touch no timer cell (10_state.md R45). -/

namespace Sys2Proof.Machine

/-- `T1`, precondition wait for `SEL = 0` (R151). -/
def stepT1 (s : State) : Result := if s.bus.sel then hold s else .next (setMs .t2 s)

/-- `T2`, take the bus: disable the interrupt (R152). -/
def stepT2 (s : State) : Result :=
  .next (emit .irqOff (setMs .t3 { s with bus.irqEn := false }))

/-- `T3`, select the slave (R153). -/
def stepT3 (s : State) : Result :=
  .next (emit .selLow (setMs .t4 { s with bus.sel := true, block.bi := 0 }))

/-- `T4`, enqueue byte `BI` when the FIFO has space (R154). A `BI` past the frame is never reached
(log 17). -/
def stepT4 (s : State) : Result :=
  if txNf s then
    match frameByte s s.block.bi with
    | none => .fault .byteIndexPastFrame
    | some b =>
      .next (setMs (if s.block.bi + 1 ≤ Config.size then .t4 else .t5a)
        { s with bus.txq := s.bus.txq ++ [b], block.bi := s.block.bi + 1 })
  else hold s

/-- `T5A`, wait for the FIFO to drain (R155). -/
def stepT5A (s : State) : Result := if txCnt s = 0 then .next (setMs .t5b s) else hold s

/-- `T5B`, wait for the shifter to finish (R156). -/
def stepT5B (s : State) : Result := if sBusy s then hold s else .next (setMs .t6 s)

/-- `T6`, clear the completion flag (R157). -/
def stepT6 (s : State) : Result :=
  .next (emit .tcClr (setMs .t7t { s with bus.tc := false }))

/-- `T7T`, trigger the receive flush (R158). -/
def stepT7T (s : State) : Result :=
  .next (emit .rxFlush (setMs .t7w { s with bus.rfl := true }))

/-- `T7W`, wait for the flush to finish (R159). -/
def stepT7W (s : State) : Result := if s.bus.rfl then hold s else .next (setMs .t8 s)

/-- The block's writes of `T8`, deselect the slave (R160). -/
def deselect (s : State) : State :=
  emit .selHigh (setMs .t9 { s with bus.sel := false })

/-- `T8`, deselect the slave, which at this instant latches the window it closes (R160; 20_memory.md
R67, R86). Where the window is a frame of the register map, `step` runs that frame's instruction in
place of `latchWindow` (log 13); the two agree (Obligations.FrameMeaningAgreesWithImageRule). -/
def stepT8 (s : State) : Result := .next (latchWindow (openWindow s.trace) (deselect s))

/-- `T9`, release the bus: enable the interrupt, unconditionally, and end the item (R161). -/
def stepT9 (s : State) : Result :=
  .next (emit .irqOn (endItem { s with bus.irqEn := true }))

end Sys2Proof.Machine
end

