-- ==== Sys2Proof/Machine/Moves.lean ====
section
/-! DEFINITION. The turn of each agent: the micro-step `MS` names (spec/10_state.md R27), the
environment's steps, and what a turn fetches: a word at the command port or a frame on the wire. -/

namespace Sys2Proof.Machine

/-- The micro-step `MS` names (10_state.md R23, R27). -/
def microStep (s : State) : Result :=
  match s.block.ms with
  | .fetch => stepFetch s
  | .t1 => stepT1 s
  | .t2 => stepT2 s
  | .t3 => stepT3 s
  | .t4 => stepT4 s
  | .t5a => stepT5A s
  | .t5b => stepT5B s
  | .t6 => stepT6 s
  | .t7t => stepT7T s
  | .t7w => stepT7W s
  | .t8 => stepT8 s
  | .t9 => stepT9 s
  | .wl => stepWL s
  | .wc => stepWC s
  | .ws => stepWS s
  | .wo => stepWO s
  | .wx => stepWX s

/-- The block's turn: in IDLE it has no step of its own but ACCEPT, which `fetch` finds (R23). -/
def stepBlock (s : State) : Result :=
  match s.block.phase with
  | .idle => hold s
  | .run => microStep s

/-- One turn. -/
def runMove (m : Move) (s : State) : Result :=
  match m with
  | .block => stepBlock s
  | .host => .next (stepHost s)
  | .pe1 => .next (stepPE1 s)
  | .pe2 => .next (stepPE2 s)
  | .pe3 => .next (stepPE3 s)
  | .te1 => .next (stepTE1 s)

/-- What the next turn fetches. -/
inductive Fetched where
  /-- ACCEPT finds this command at the port (10_state.md R24). -/
  | command (i : Instr)
  /-- ACCEPT refuses the word at the port (30_encoding.md R112 to R114). -/
  | refuse (r : Refusal)
  /-- T8 closes a window that is this frame (20_memory.md R67). -/
  | frame (i : Instr)
  /-- No instruction: a turn of this agent. -/
  | turn (m : Move)
  deriving DecidableEq, Repr

/-- ACCEPT's decision on the word at the port (10_state.md R24; 30_encoding.md R111). -/
def fetchCommand (w : Word24) : Fetched :=
  match decodeCmd w with
  | .command i => .command i
  | .reserved => .refuse (.reservedWord w)
  | .outOfContract i => .refuse (.outOfContract i.mnemonic)

/-- The frame on the wire when T8 closes the window, if it is one of the register map (R102). -/
def fetchFrame (w : Option (List Byte)) : Fetched :=
  match w with
  | none => .turn .block
  | some bs =>
    match decodeWindow bs with
    | .frame i => .frame i
    | .unmapped _ => .turn .block
    | .badLength _ => .turn .block

/-- What the next turn fetches: the block's turn takes the offered command when it is idle and a word
is offered, and the frame on the wire when it stands at T8. -/
def fetch (s : State) : Fetched :=
  match nextMove s with
  | .block =>
    match s.block.phase with
    | .idle => if s.port.valid then fetchCommand s.port.word else .turn .block
    | .run => if s.block.ms = .t8 then fetchFrame (openWindow s.trace) else .turn .block
  | .host => .turn .host
  | .pe1 => .turn .pe1
  | .pe2 => .turn .pe2
  | .pe3 => .turn .pe3
  | .te1 => .turn .te1

/-- Places a command word at the port of an idle block, with the block's turn next (log 4). -/
def offerWord (w : Word24) (s : State) : State :=
  { s with
    block.phase := .idle
    port.valid := true
    port.word := w
    sched := .block :: s.sched }

/-- Places a frame on the wire: an open window of its three bytes, the block at T8, its turn next
(log 4). -/
def placeFrame (w : Word24) (s : State) : State :=
  { s with
    block.phase := .run
    block.ms := .t8
    bus.sel := true
    trace := s.trace ++ [.selLow, .byte (fieldHi w), .byte (fieldMid w), .byte (fieldLo w)]
    sched := .block :: s.sched }

/-- Stores the table's word where `step` fetches it next: at the command port, or on the wire where
the port's decoder finds it reserved and the wire's finds a frame (log 4, log 23). -/
def placeWord (w : Word24) (s : State) : State :=
  match decodeCmd w, decodeFrame w with
  | .reserved, .frame _ => placeFrame w s
  | _, _ => offerWord w s

end Sys2Proof.Machine
end

