-- ==== Sys2Proof/Machine/Step.lean ====
section
/-! DEFINITION. One step of the machine: the next turn of the schedule (log 1). A command is run when
the block takes it from the port (spec/10_state.md R24), a frame when the slave latches it at T8
(20_memory.md R67); every other turn is a micro-step or a step of the environment. -/

namespace Sys2Proof.Machine

/-- One step. -/
def step (s : State) : Host.Outcome State Fault Refusal :=
  match fetch s with
  | .command i => exec i (withdrawOffer (takeMove s))
  | .frame i => exec i (deselect (takeMove s))
  | .refuse r => .refused r
  | .turn m => runMove m (takeMove s)

/-- The state with a word of spec/opcode_table.json placed where `step` fetches its next instruction
(log 4, log 23). -/
def State.withFetchWord (s : State) (_nbits w : Nat) : State := placeWord (BitVec.ofNat 24 w) s

end Sys2Proof.Machine
end

