-- ==== Sys2Proof/Machine/Enabled.lean ====
section
/-! DEFINITION. When each agent's step is enabled (spec/10_state.md R24, R26, R27; 20_memory.md R81 to
R83; 60_exceptions.md R262). -/

namespace Sys2Proof.Machine

/-- The enabling condition of the micro-step `MS` names: the "enabled when" column of R27. -/
def microEnabled (s : State) : Bool :=
  match s.block.ms with
  | .t1 => !s.bus.sel
  | .t4 => txNf s
  | .t5a => txCnt s = 0
  | .t5b => !sBusy s
  | .t7w => !s.bus.rfl
  | .wo => s.timer.ovf
  | .fetch => true
  | .t2 => true
  | .t3 => true
  | .t6 => true
  | .t7t => true
  | .t8 => true
  | .t9 => true
  | .wl => true
  | .wc => true
  | .ws => true
  | .wx => true

/-- The block's one step: ACCEPT in IDLE, the micro-step in RUN (R23, R24). -/
def blockEnabled (s : State) : Bool :=
  match s.block.phase with
  | .idle => s.port.valid
  | .run => microEnabled s

/-- Whether a move changes anything but the schedule. -/
def moveEnabled (m : Move) (s : State) : Bool :=
  match m with
  | .block => blockEnabled s
  | .host => !s.port.valid && !s.program.isEmpty
  | .pe1 => s.bus.shift.isNone && !s.bus.txq.isEmpty
  | .pe2 => s.bus.shift.isSome
  | .pe3 => s.bus.rfl
  | .te1 => s.timer.run && !s.timer.ovf

end Sys2Proof.Machine
end

