-- ==== Sys2Proof/Safety.lean ====
section
/-! DEFINITION. What counts as a safe run: the launch premises, the invariants the spec states of the
machine, what a run's trace must be, how many block steps are left, the cells that have no meaning,
and the hazards a host must respect. -/

namespace Sys2Proof.Machine

/-! ### Launch premises (spec/10_state.md R52, R53) -/

/-- The duties of the excluded start-up: idle, `SEL = 0`, `TXQ = []`, `SHIFT = none`. -/
def Launch (s : State) : Prop :=
  s.block.phase = .idle ∧ s.bus.sel = false ∧ s.bus.txq = [] ∧ s.bus.shift = none

/-! ### The bus discipline (41_transfer.md R166 (b) to (e), what holds in the first transfer too) -/

/-- Nothing in the output FIFO and nothing in the shift register. -/
def Quiet (s : State) : Prop := s.bus.txq = [] ∧ s.bus.shift = none

/-- The bus while no frame is selected: deselected and quiet. -/
def BusFree (s : State) : Prop := s.bus.sel = false ∧ Quiet s

/-- The bus inside a chip-select window: selected, the interrupt disabled. -/
def BusTaken (s : State) : Prop := s.bus.sel = true ∧ s.bus.irqEn = false

/-- What R166 says of the bus at each micro-step of a running command. -/
def busAt (s : State) : Prop :=
  match s.block.ms with
  | .fetch => BusFree s
  | .t1 => BusFree s
  | .t2 => BusFree s
  | .t3 => BusFree s ∧ s.bus.irqEn = false
  | .t4 => BusTaken s ∧ s.block.bi ≤ Config.size
  | .t5a => BusTaken s ∧ s.block.bi = Config.size + 1
  | .t5b => BusTaken s ∧ s.block.bi = Config.size + 1 ∧ s.bus.txq = []
  | .t6 => BusTaken s ∧ Quiet s
  | .t7t => BusTaken s ∧ Quiet s ∧ s.bus.tc = false
  | .t7w => BusTaken s ∧ Quiet s ∧ s.bus.tc = false ∧ (s.bus.rfl = false → s.bus.rxq = [])
  | .t8 => BusTaken s ∧ Quiet s ∧ s.bus.tc = false ∧ s.bus.rfl = false ∧ s.bus.rxq = []
  | .t9 => BusFree s ∧ s.bus.irqEn = false ∧ s.bus.tc = false ∧ s.bus.rfl = false ∧ s.bus.rxq = []
  | .wl => BusFree s
  | .wc => BusFree s
  | .ws => BusFree s
  | .wo => BusFree s
  | .wx => BusFree s

/-- The bus discipline: the FIFO within its depth, R166 (b), SEL of (e), and of (c), (d) and the rest
of (e) what holds inside a transfer; `ReleasedInv` says what holds after one. -/
def BusInv (s : State) : Prop :=
  s.bus.txq.length ≤ Config.fifoDepth ∧
    match s.block.phase with
    | .idle => BusFree s
    | .run => busAt s

/-! ### The bus after a completed transfer (41_transfer.md R166 (c) to (e)) -/

/-- The completion flag and the receive path as a transfer leaves them. -/
def BusSettled (s : State) : Prop := s.bus.tc = false ∧ s.bus.rfl = false ∧ s.bus.rxq = []

/-- A settled bus with the interrupt enabled. -/
def BusReleased (s : State) : Prop := BusSettled s ∧ s.bus.irqEn = true

/-- At each micro-step of a running command, what R166 (c) to (e) say once a transfer has completed:
released from FETCH through the waits up to T2, the interrupt disabled from there on, the receive path
empty until T4; inside a window `busAt` says the rest. -/
def settledAt (s : State) : Prop :=
  match s.block.ms with
  | .fetch | .t1 | .t2 | .wl | .wc | .ws | .wo | .wx => BusReleased s
  | .t3 | .t8 | .t9 => BusSettled s ∧ s.bus.irqEn = false
  | .t4 | .t5a | .t5b | .t6 | .t7t | .t7w => s.bus.irqEn = false

/-- Once a transfer has completed (its IRQ_ON is in the trace) the bus is released outside transfers:
`IRQ_EN = 1`, `TC = 0` and `RXQ = []` up to the next T2 and T4, in IDLE too. Before the first one
these cells are unspecified (10_state.md R38, R52). -/
def ReleasedInv (s : State) : Prop :=
  .irqOn ∈ s.trace →
    match s.block.phase with
    | .idle => BusReleased s
    | .run => settledAt s

/-! ### The sequence position (10_state.md R25, R27; 44_sequencer.md R216) -/

/-- What the position says of the item list `l` at each micro-step. -/
def positionAt (l : List Item) (s : State) : Prop :=
  match s.block.ms with
  | .fetch => s.block.fi ≤ l.length
  | .t1 | .t2 | .t3 | .t4 | .t5a | .t5b | .t6 | .t7t | .t7w | .t8 | .t9 =>
    l[s.block.fi]? = some (.frame s.block.pay0 s.block.pay1)
  | .wl | .wc | .ws | .wo =>
    ∃ n, l[s.block.fi]? = some (.wait s.block.u n) ∧ s.block.dn ≠ 0 ∧ s.block.dn.toNat ≤ n.toNat
  | .wx => (∃ n, l[s.block.fi]? = some (.wait s.block.u n)) ∧ s.block.dn = 0

/-- A running block stands at a position of the list its latched command expands to. -/
def PositionInv (s : State) : Prop :=
  s.block.phase = .run → ∃ l, currentItems s = some l ∧ positionAt l s

/-! ### The trace of a run (41_transfer.md R165; 40_delay.md R138; 20_memory.md R88) -/

/-- The three bytes of a frame on the wire (30_encoding.md R100). -/
def frameBytes (a v : Byte) : List Byte := [Config.opcodeWriteBuffer, a, v]

/-- The events one item leaves: nine for a frame (R165), `n` ticks and one stop for a wait (R138). -/
def itemEvents : Item → List Event
  | .frame a v =>
    [.irqOff, .selLow] ++ (frameBytes a v).map .byte ++ [.tcClr, .rxFlush, .selHigh, .irqOn]
  | .wait u n => List.replicate n.toNat (.tick u) ++ [.tmrStop u]

/-- The events a completed command leaves. -/
def commandEvents (w : Word24) : List Event :=
  .cmdAccept w :: ((itemsOfWord w).getD []).flatMap itemEvents ++ [.cmdDone]

/-- The words of a run are commands in contract. -/
def Accepted (ws : List Word24) : Prop := ∀ w ∈ ws, (itemsOfWord w).isSome

/-- The events of the item in progress so far. -/
def partialEvents (s : State) (evs : List Event) : Prop :=
  match s.block.ms with
  | .fetch => evs = []
  | .t1 => evs = []
  | .t2 => evs = []
  | .t3 => evs = [.irqOff]
  | .t4 | .t5a | .t5b => ∃ sent,
      sent ++ s.bus.shift.toList ++ s.bus.txq
        = (frameBytes s.block.pay0 s.block.pay1).take s.block.bi
      ∧ evs = [.irqOff, .selLow] ++ sent.map .byte
  | .t6 => evs = [.irqOff, .selLow] ++ (frameBytes s.block.pay0 s.block.pay1).map .byte
  | .t7t => evs = [.irqOff, .selLow] ++ (frameBytes s.block.pay0 s.block.pay1).map .byte ++ [.tcClr]
  | .t7w | .t8 => evs = [.irqOff, .selLow] ++ (frameBytes s.block.pay0 s.block.pay1).map .byte
      ++ [.tcClr, .rxFlush]
  | .t9 => evs = [.irqOff, .selLow] ++ (frameBytes s.block.pay0 s.block.pay1).map .byte
      ++ [.tcClr, .rxFlush, .selHigh]
  | .wl | .wc | .ws | .wo | .wx => ∃ l n, currentItems s = some l
      ∧ l[s.block.fi]? = some (.wait s.block.u n)
      ∧ evs = List.replicate (n.toNat - s.block.dn.toNat) (.tick s.block.u)

/-- The trace is that of completed commands one after another, and of the items done so far of the
command in progress (R88 (a) to (e)). -/
def TraceInv (s : State) : Prop :=
  ∃ ws, Accepted ws ∧
    match s.block.phase with
    | .idle => s.trace = ws.flatMap commandEvents
    | .run => ∃ l evs, currentItems s = some l ∧ partialEvents s evs ∧
        s.trace = ws.flatMap commandEvents ++ .cmdAccept (latchedWord s)
          :: ((l.take s.block.fi).flatMap itemEvents ++ evs)

/-! ### The slave register image (20_memory.md R86) -/

/-- The image is canonical and is the function of the trace R86 defines. -/
def ImageInv (s : State) : Prop := s.img.wf = true ∧ s.img = imageOf s.trace

/-- A recorded intensity above 15 is marked (42_register_protocol.md R188). -/
def MarkInv (s : State) : Prop :=
  ∀ v, s.img.read Config.addrIntensity = some v → 15 < v.toNat → s.intMark = true

/-- The counter runs while the block waits for its overflow (40_delay.md R134, R135). -/
def TimerInv (s : State) : Prop :=
  s.block.phase = .run → s.block.ms = .wo → s.timer.run = true

/-- Everything the spec says holds of every reachable state. -/
def Inv (s : State) : Prop :=
  BusInv s ∧ ReleasedInv s ∧ PositionInv s ∧ TimerInv s ∧ TraceInv s ∧ ImageInv s ∧ MarkInv s

/-! ### The vocabulary of claims -/

/-- It is the block's turn and it stands at this micro-step of a running command. -/
def BlockAt (m : MicroStep) (s : State) : Prop :=
  nextMove s = .block ∧ s.block.phase = .run ∧ s.block.ms = m

/-- `t` is `s` after ACCEPT of the word `op :: a :: b`, every other cell unchanged (10_state.md
R24). -/
def TakenAs (op a b : Byte) (s t : State) : Prop :=
  t = { s with
        block := { s.block with op := op, a := a, b := b, fi := 0, ms := .fetch, phase := .run }
        trace := s.trace ++ [.cmdAccept (mkWord op a b)] }

/-- The command the block has latched is the one register write `MemWrite(a, 1, v)`: its item list is
that one frame, and its completed trace holds the one window `[W, a, v]` and leaves the image with
that register written and no other (42_register_protocol.md R180; 43_mapper.md R200). -/
def WritesOneRegister (a v : Byte) (t : State) : Prop :=
  currentItems t = some [.frame a v] ∧
    windows (commandEvents (latchedWord t)) = [frameBytes a v] ∧
    imageOf (commandEvents (latchedWord t)) = [(a.toNat, v)]

/-- `t` is `s` after the slave latched `v` in register `a`: that register reads as `v`, every other
address reads as before, nothing else changes (20_memory.md R67, R86). -/
def Latched (a v : Byte) (s t : State) : Prop :=
  t = { s with img := t.img } ∧ t.img.read a = some v ∧
    ∀ x, x ≠ a → t.img.read x = s.img.read x

/-- The view item of an item of a list (00_scope.md R13). -/
def itemView : Item → ViewItem
  | .frame a v => .frame (frameBytes a v)
  | .wait u n => .wait u n.toNat

/-- The windows of an item: one for a frame, none for a wait (30_encoding.md R100; 41_transfer.md
R166 (a)). -/
def itemWindows : Item → List (List Byte)
  | .frame a v => [frameBytes a v]
  | .wait _ _ => []

/-- The image after the register writes of a list (20_memory.md R86). -/
def imageAfter (m : Memory) : List Item → Memory
  | [] => m
  | .frame a v :: rest => imageAfter (m.write a v) rest
  | .wait _ _ :: rest => imageAfter m rest

/-- The list of a command word, empty where it has none. -/
def itemsOrNone (w : Word24) : List Item := (itemsOfWord w).getD []

/-! ### Progress (20_memory.md R84; 44_sequencer.md R217; 70_reset_and_hazards.md R301) -/

/-- A hang (00_scope.md R14): a running command whose wait step is not enabled and which no step of
the environment can lift. -/
def Stuck (s : State) : Prop :=
  s.block.phase = .run ∧ ∀ m, m ≠ .host → moveEnabled m s = false

/-- `steps(item)` of R217. -/
def itemSteps : Item → Nat
  | .frame _ _ => 13
  | .wait _ n => 4 * n.toNat + 1

/-- Block steps to walk a list from a FETCH: one FETCH per item and a last one (R217). -/
def listSteps (l : List Item) : Nat := (l.map fun it => 1 + itemSteps it).sum + 1

/-- Block steps left in the item in progress, the micro-step `MS` names included. -/
def itemStepsLeft (s : State) : Nat :=
  match s.block.ms with
  | .fetch => 0
  | .t1 => 13
  | .t2 => 12
  | .t3 => 11
  | .t4 => 10 - s.block.bi
  | .t5a => 7
  | .t5b => 6
  | .t6 => 5
  | .t7t => 4
  | .t7w => 3
  | .t8 => 2
  | .t9 => 1
  | .wl => 4 * s.block.dn.toNat + 1
  | .wc => 4 * s.block.dn.toNat
  | .ws => 4 * s.block.dn.toNat - 1
  | .wo => 4 * s.block.dn.toNat - 2
  | .wx => 1

/-- Block steps left until CMD_DONE (R217, R301). -/
def stepsLeft (s : State) : Nat :=
  match s.block.phase with
  | .idle => 0
  | .run =>
    let l := (currentItems s).getD []
    match s.block.ms with
    | .fetch => listSteps (l.drop s.block.fi)
    | .t1 | .t2 | .t3 | .t4 | .t5a | .t5b | .t6 | .t7t | .t7w | .t8 | .t9
    | .wl | .wc | .ws | .wo | .wx => itemStepsLeft s + listSteps (l.drop (s.block.fi + 1))

/-! ### Cells without a meaning (10_state.md R20) -/

/-- The block with every cell that no later rule reads put to a fixed value: in IDLE every cell but
`PHASE` (R20), in RUN the cells that are written before they are next read. -/
def eraseBlock (b : Block) : Block :=
  match b.phase with
  | .idle => { Block.reset with phase := .idle }
  | .run =>
    match b.ms with
    | .fetch => { b with pay0 := 0, pay1 := 0, u := .us, bi := 0, dn := 0 }
    | .t1 | .t2 | .t3 => { b with u := .us, bi := 0, dn := 0 }
    | .t4 => { b with u := .us, dn := 0 }
    | .t5a | .t5b | .t6 | .t7t | .t7w | .t8 | .t9 =>
      { b with pay0 := 0, pay1 := 0, u := .us, bi := 0, dn := 0 }
    | .wl | .wc | .ws | .wo => { b with pay0 := 0, pay1 := 0, bi := 0 }
    | .wx => { b with pay0 := 0, pay1 := 0, bi := 0, dn := 0 }

/-- The state without its meaningless cells. -/
def erase (s : State) : State := { s with block := eraseBlock s.block }

/-- An outcome without its meaningless cells. -/
def eraseOutcome : Result → Result
  | .next s => .next (erase s)
  | .fault r => .fault r
  | .refused r => .refused r

/-! ### Hazards on the host (70_reset_and_hazards.md R290 to R292) -/

/-- The image says that digit data is meaningful: shutdown left, no decoding, display test off. -/
def DisplayReady (m : Memory) : Prop :=
  m.read Config.addrShutdown = some (Config.valShdn .normal) ∧
  m.read Config.addrDecode = some Config.valNoDecode ∧
  m.read Config.addrDispTest = some (Config.valTest .normal)

end Sys2Proof.Machine
end

