-- ==== Sys2Proof/Certificates/Slice0/Obligations.lean ====
section
/-! DEFINITION. The statements for the provers, each with the rule of spec/ it formalises. -/

open Sys2Proof Sys2Proof.Machine

/-! ### A step runs the decoded instruction -/

/-- 10_state.md R24, 30_encoding.md R111 to R114: on the block's turn, in IDLE, an offered word that
decodes to a command is taken: the command is well-formed and the step is its exec, on the state whose
schedule has moved on and whose offer the host has withdrawn (both the model's own, log 1 and log 3).
A word that spells no command, or one with an operand out of contract, is refused by name. -/
def Obligations.StepRunsTheOfferedCommand : Prop :=
  ∀ s : State, nextMove s = .block → s.block.phase = .idle → s.port.valid = true →
    (∀ i, decodeCmd s.port.word = .command i →
      i.wellFormed = true ∧ step s = exec i (withdrawOffer (takeMove s))) ∧
    (decodeCmd s.port.word = .reserved → step s = .refused (.reservedWord s.port.word)) ∧
    (∀ i, decodeCmd s.port.word = .outOfContract i →
      step s = .refused (.outOfContract i.mnemonic))

/-- 20_memory.md R67, 30_encoding.md R102, 41_transfer.md R160: on the block's turn at T8, when the
window that closes is a frame of the register map, the step is that frame's exec on the state the
block's own T8 writes leave. That the slave's frame kinds are instructions, and that T8 runs
them, is the model's choice (log 13): R67 says when the slave latches, R102 what a frame of each kind
does. -/
def Obligations.StepRunsTheFrameOnTheWire : Prop :=
  ∀ (s : State) (o a v : Byte) (i : Instr), BlockAt .t8 s → openWindow s.trace = some [o, a, v] →
    decodeFrame (mkWord o a v) = .frame i →
    step s = exec i (emit .selHigh (setMs .t9 { takeMove s with bus.sel := false }))

/-! ### Decoding and encoding -/

/-- 95_test_vectors.md V1 to V16f and the frame rows of 30_encoding.md R102, words written out: a sanity
statement. The frame addresses above 8 are the defaults (log 6). -/
def Obligations.ReferenceWordsDecode : Prop :=
  decodeCmd 0x010000 = .command .initDisp ∧
  decodeCmd 0x050001 = .command (.setShdn .normal) ∧
  decodeCmd 0x050002 = .reserved ∧
  decodeCmd 0x000000 = .reserved ∧
  decodeCmd 0x070100 = .reserved ∧
  decodeCmd 0x0C01F4 = .command (.waitMs 500) ∧
  decodeCmd 0x080908 = .command (.setDigit 9 8) ∧
  decodeCmd 0x080A08 = .outOfContract (.setDigit 10 8) ∧
  decodeCmd 0x09FF09 = .outOfContract (.setGlyph 0xFF 9) ∧
  decodeFrame 0x550133 = .frame (.fDigit1 0x55 0x33) ∧
  decodeFrame 0xAA0B07 = .frame (.fScanLimit 0xAA 0x07) ∧
  decodeFrame 0x000D00 = .unmapped 0x0D

/-- 30_encoding.md R107 to R114: for every command term, at every value of its operands, decode of its
word gives the command back, or, for operands out of contract, that verdict with the same command. -/
def Obligations.DecodeOfEncodedCommand : Prop :=
  ∀ i : Instr, i.format = .cmd24 →
    decodeCmd (encode i) = if i.wellFormed then .command i else .outOfContract i

/-- 30_encoding.md R100, R102: for every frame term, at every opcode byte and value byte, decode of its
word gives the frame back. -/
def Obligations.DecodeOfEncodedFrame : Prop :=
  ∀ i : Instr, i.format = .frame24 → decodeFrame (encode i) = .frame i

/-- 30_encoding.md R100 to R114: no bit of a word that decodes to a row is dropped, in either format:
the word is the row's encoding, a command verdict is well-formed and an out_of_contract verdict is not;
a wire word whose verdict is unmapped carries an address that is none of the fourteen. -/
def Obligations.EncodeOfDecodedWord : Prop :=
  ∀ (w : Word24) (i : Instr),
    (decodeCmd w = .command i → encode i = w ∧ i.format = .cmd24 ∧ i.wellFormed = true) ∧
    (decodeCmd w = .outOfContract i → encode i = w ∧ i.format = .cmd24 ∧ i.wellFormed = false) ∧
    (decodeFrame w = .frame i → encode i = w ∧ i.format = .frame24) ∧
    (∀ a, decodeFrame w = .unmapped a →
      a = fieldMid w ∧ (i.format = .frame24 → fieldMid (encode i) ≠ a))

/-- 30_encoding.md R110, R111: a word matches a row iff `w & mask = match`; the decoder answers
`reserved` exactly when no row of the command table matches, and otherwise names a row that matches. -/
def Obligations.DecodeFollowsTheRowMasks : Prop :=
  ∀ w : Word24,
    (decodeCmd w = .reserved ↔
      ∀ i : Instr, i.format = .cmd24 → w &&& (tableRow i).1 ≠ (tableRow i).2) ∧
    (∀ i, decodeCmd w = .command i ∨ decodeCmd w = .outOfContract i →
      w &&& (tableRow i).1 = (tableRow i).2)

/-- 30_encoding.md R110, "the rows are disjoint", and R102: a word matches at most one row of a
format. -/
def Obligations.EncodingRowsAreDisjoint : Prop :=
  ∀ (w : Word24) (i j : Instr), i.format = j.format →
    w &&& (tableRow i).1 = (tableRow i).2 → w &&& (tableRow j).1 = (tableRow j).2 →
    i.mnemonic = j.mnemonic

/-! ### Reset -/

/-- 10_state.md R52: the values the spec gives the machine at reset: IDLE, an empty trace, the three
launch premises, and a slave image with nothing written. -/
def Obligations.ResetLeavesTheStatedValues : Prop :=
  State.reset.block.phase = .idle ∧ State.reset.trace = [] ∧ State.reset.bus.sel = false ∧
  State.reset.bus.txq = [] ∧ State.reset.bus.shift = none ∧
  ∀ a : Byte, State.reset.img.read a = none

/-- 10_state.md R52, R53: the reset state meets the launch premises and the invariant of the machine. -/
def Obligations.ResetMeetsTheInvariant : Prop := Launch State.reset ∧ Inv State.reset

/-! ### The commands: what each is taken as and what its item list is -/

/-- 42_register_protocol.md R181: SETSCAN, taken by an idle block, is the register write
`MemWrite(ADDR_SCANLIMIT, 1, 0x07)`: its word is latched, its item list is that one frame, and its
trace is that one window and that one register. -/
def Obligations.SetScanWritesTheScanLimit : Prop :=
  ∀ s : State, s.block.phase = .idle → ∃ t, exec .setScan s = .next t ∧ TakenAs 0x03 0x00 0x00 s t ∧
    WritesOneRegister Config.addrScanLimit 0x07 t

/-- 42_register_protocol.md R182: SETDECODE writes 0x00 to the decode-mode register. -/
def Obligations.SetDecodeWritesNoDecode : Prop :=
  ∀ s : State, s.block.phase = .idle → ∃ t, exec .setDecode s = .next t ∧
    TakenAs 0x04 0x00 0x00 s t ∧ WritesOneRegister Config.addrDecode 0x00 t

/-- 42_register_protocol.md R183: SETSHDN writes `VAL_SHDN(mode)` to the shutdown register; the mode
travels in `B[0]`, 1 for normal. -/
def Obligations.SetShdnWritesItsMode : Prop :=
  ∀ s : State, s.block.phase = .idle →
    (∃ t, exec (.setShdn .shutdown) s = .next t ∧ TakenAs 0x05 0x00 0x00 s t ∧
      WritesOneRegister Config.addrShutdown (Config.valShdn .shutdown) t) ∧
    (∃ t, exec (.setShdn .normal) s = .next t ∧ TakenAs 0x05 0x00 0x01 s t ∧
      WritesOneRegister Config.addrShutdown (Config.valShdn .normal) t)

/-- 42_register_protocol.md R185: SETTEST writes `VAL_TEST(mode)` to the display-test register; the mode
travels in `B[0]`, 1 for test. -/
def Obligations.SetTestWritesItsMode : Prop :=
  ∀ s : State, s.block.phase = .idle →
    (∃ t, exec (.setTest .normal) s = .next t ∧ TakenAs 0x06 0x00 0x00 s t ∧
      WritesOneRegister Config.addrDispTest (Config.valTest .normal) t) ∧
    (∃ t, exec (.setTest .test) s = .next t ∧ TakenAs 0x06 0x00 0x01 s t ∧
      WritesOneRegister Config.addrDispTest (Config.valTest .test) t)

/-- 42_register_protocol.md R187, R188: SETINT writes its level to the intensity register, all eight
bits unchanged for every level 0 to 255, and a level above 15 marks the run (when it is marked is the
model's choice, log 14). -/
def Obligations.SetIntPassesItsLevelThrough : Prop :=
  ∀ (s : State) (level : Byte), s.block.phase = .idle → ∃ t, exec (.setInt level) s = .next t ∧
    TakenAs 0x07 0x00 level { s with intMark := s.intMark || decide (15 < level.toNat) } t ∧
    WritesOneRegister Config.addrIntensity level t

/-- 43_mapper.md R201: SETDIGIT with a value in 0..9 and a position in 1..8 writes `GLYPH[value]` to the
digit register of the position, whose address equals the position. -/
def Obligations.SetDigitWritesItsGlyph : Prop :=
  ∀ (s : State) (d p : Byte), s.block.phase = .idle → d.toNat ≤ 9 → 1 ≤ p.toNat → p.toNat ≤ 8 →
    ∃ t g, exec (.setDigit d p) s = .next t ∧ TakenAs 0x08 d p s t ∧
      [0x7E#8, 0x30#8, 0x6D#8, 0x79#8, 0x33#8, 0x5B#8, 0x5F#8, 0x70#8, 0x7F#8, 0x7B#8][d.toNat]?
        = some g ∧
      WritesOneRegister p g t

/-- 43_mapper.md R203: SETGLYPH with a position in 1..8 writes its pattern, any byte, to the digit
register of the position. -/
def Obligations.SetGlyphWritesItsPattern : Prop :=
  ∀ (s : State) (g p : Byte), s.block.phase = .idle → 1 ≤ p.toNat → p.toNat ≤ 8 →
    ∃ t, exec (.setGlyph g p) s = .next t ∧ TakenAs 0x09 g p s t ∧
      WritesOneRegister p g t

/-- 44_sequencer.md R220: INITDISP is its thirteen frames in the order of the source. The default
intensity is `INTENSITY_DEFAULT` (log 8). -/
def Obligations.InitDispExpandsInOrder : Prop :=
  ∀ s : State, s.block.phase = .idle → ∃ t, exec .initDisp s = .next t ∧
    TakenAs 0x01 0x00 0x00 s t ∧
    currentItems t = some
      [.frame Config.addrScanLimit 0x07, .frame Config.addrDecode 0x00,
       .frame Config.addrShutdown (Config.valShdn .normal),
       .frame Config.addrDispTest (Config.valTest .normal),
       .frame 1 0x00, .frame 2 0x00, .frame 3 0x00, .frame 4 0x00,
       .frame 5 0x00, .frame 6 0x00, .frame 7 0x00, .frame 8 0x00,
       .frame Config.addrIntensity Config.intensityDefault]

/-- 44_sequencer.md R221: CLRDISP is eight frames, positions 1 to 8 ascending, each with value 0x00. -/
def Obligations.ClrDispExpandsInOrder : Prop :=
  ∀ s : State, s.block.phase = .idle → ∃ t, exec .clrDisp s = .next t ∧
    TakenAs 0x02 0x00 0x00 s t ∧
    currentItems t = some
      [.frame 1 0x00, .frame 2 0x00, .frame 3 0x00, .frame 4 0x00,
       .frame 5 0x00, .frame 6 0x00, .frame 7 0x00, .frame 8 0x00]

/-- 44_sequencer.md R222, R223: SELFTEST is the literal sequence of the source, with the five letters at
positions 3 to 7 and four waits of 500 ms; position 8 is not written in the second group. -/
def Obligations.SelfTestExpandsInOrder : Prop :=
  ∀ s : State, s.block.phase = .idle → ∃ t, exec .selfTest s = .next t ∧
    TakenAs 0x0A 0x00 0x00 s t ∧
    currentItems t = some
      ([.frame 1 0x7E, .frame 2 0x30, .frame 3 0x6D, .frame 4 0x79,
        .frame 5 0x33, .frame 6 0x5B, .frame 7 0x5F, .frame 8 0x70, .wait .ms 500] ++
       [.frame 1 0x00, .frame 2 0x00, .frame 3 0x00, .frame 4 0x00,
        .frame 5 0x00, .frame 6 0x00, .frame 7 0x00, .frame 8 0x00, .wait .ms 500] ++
       [.frame 1 0x7F, .frame 2 0x7B, .frame 3 (Config.letter 0), .frame 4 (Config.letter 1),
        .frame 5 (Config.letter 2), .frame 6 (Config.letter 3), .frame 7 (Config.letter 4),
        .wait .ms 500] ++
       [.frame 1 0x00, .frame 2 0x00, .frame 3 0x00, .frame 4 0x00,
        .frame 5 0x00, .frame 6 0x00, .frame 7 0x00, .frame 8 0x00, .wait .ms 500])

/-- 40_delay.md R130, R131; 30_encoding.md R109: the waits are one item with the count `n = A :: B`,
for every count. -/
def Obligations.WaitsExpandToOneDelay : Prop :=
  ∀ (s : State) (a b : Byte), s.block.phase = .idle →
    (∃ t, exec (.waitUs (a ++ b)) s = .next t ∧ TakenAs 0x0B a b s t ∧
      currentItems t = some [.wait .us (a ++ b)]) ∧
    (∃ t, exec (.waitMs (a ++ b)) s = .next t ∧ TakenAs 0x0C a b s t ∧
      currentItems t = some [.wait .ms (a ++ b)])

/-- 10_state.md R24, 60_exceptions.md R241: a command given while one runs is not taken: nothing
changes, whatever its operands. That exec answers the same state is read from R241's words "no step"
(log 18). -/
def Obligations.BusyBlockTakesNoCommand : Prop :=
  ∀ (s : State) (i : Instr), s.block.phase = .run → i.format = .cmd24 → exec i s = .next s

/-- 43_mapper.md R202, R204; 30_encoding.md R114: an idle block refuses, by name, a digit above 9 and a
position outside 1 to 8, and nothing else. -/
def Obligations.OutOfContractOperandsAreRefused : Prop :=
  ∀ s : State, s.block.phase = .idle →
    (∀ d p : Byte, 9 < d.toNat ∨ p.toNat = 0 ∨ 8 < p.toNat →
      exec (.setDigit d p) s = .refused (.outOfContract "SETDIGIT")) ∧
    (∀ g p : Byte, p.toNat = 0 ∨ 8 < p.toNat →
      exec (.setGlyph g p) s = .refused (.outOfContract "SETGLYPH")) ∧
    (∀ i : Instr, i.wellFormed = true → ∃ t, exec i s = .next t)

/-- 10_state.md R20, R21, R24: the frame of the commands: one that is taken changes OP, A, B, FI, MS,
PHASE, the trace by one event and, SETINT only, the mark; no bus, timer or port cell, no PAY, U, BI,
DN, and no slave register. -/
def Obligations.CommandsChangeOnlyTheLatch : Prop :=
  ∀ (i : Instr) (s t : State), i.format = .cmd24 → exec i s = .next t →
    t.bus = s.bus ∧ t.timer = s.timer ∧ t.port = s.port ∧ t.program = s.program ∧
    t.sched = s.sched ∧ t.moveDraws = s.moveDraws ∧ t.rxDraws = s.rxDraws ∧
    t.block.pay0 = s.block.pay0 ∧ t.block.pay1 = s.block.pay1 ∧ t.block.u = s.block.u ∧
    t.block.bi = s.block.bi ∧ t.block.dn = s.block.dn ∧
    ((∀ level, i ≠ .setInt level) → t.intMark = s.intMark) ∧
    (t.trace = s.trace ∨ t.trace = s.trace ++ [.cmdAccept (encode i)]) ∧
    ∀ a : Byte, t.img.read a = s.img.read a

/-! ### The frames: what the slave does with each kind -/

/-- 20_memory.md R71, R72, R86: a no-op or digit frame, with any opcode byte and any value, leaves its
value in its register, every other address and every other cell as before. `ADDR_NOOP` is a default
(log 6). -/
def Obligations.DigitFramesWriteTheirRegister : Prop :=
  ∀ (s : State) (o v : Byte),
    (∃ t, exec (.fNoop o v) s = .next t ∧ Latched Config.addrNoop v s t) ∧
    (∃ t, exec (.fDigit1 o v) s = .next t ∧ Latched 1 v s t) ∧
    (∃ t, exec (.fDigit2 o v) s = .next t ∧ Latched 2 v s t) ∧
    (∃ t, exec (.fDigit3 o v) s = .next t ∧ Latched 3 v s t) ∧
    (∃ t, exec (.fDigit4 o v) s = .next t ∧ Latched 4 v s t) ∧
    (∃ t, exec (.fDigit5 o v) s = .next t ∧ Latched 5 v s t) ∧
    (∃ t, exec (.fDigit6 o v) s = .next t ∧ Latched 6 v s t) ∧
    (∃ t, exec (.fDigit7 o v) s = .next t ∧ Latched 7 v s t) ∧
    (∃ t, exec (.fDigit8 o v) s = .next t ∧ Latched 8 v s t)

/-- 20_memory.md R73 to R77, R86: a control-register frame leaves its value in its register; an
intensity frame above 15 also marks the run (42_register_protocol.md R188; log 14). -/
def Obligations.ControlFramesWriteTheirRegister : Prop :=
  ∀ (s : State) (o v : Byte),
    (∃ t, exec (.fDecode o v) s = .next t ∧ Latched Config.addrDecode v s t) ∧
    (∃ t, exec (.fScanLimit o v) s = .next t ∧ Latched Config.addrScanLimit v s t) ∧
    (∃ t, exec (.fShutdown o v) s = .next t ∧ Latched Config.addrShutdown v s t) ∧
    (∃ t, exec (.fDispTest o v) s = .next t ∧ Latched Config.addrDispTest v s t) ∧
    (∃ t, exec (.fIntensity o v) s = .next t ∧
      Latched Config.addrIntensity v { s with intMark := s.intMark || decide (15 < v.toNat) } t)

/-- 20_memory.md R86 against 30_encoding.md R102: running a frame's instruction is the image update of
the window rule, `img[a] <- v` for the window `[o, a, v]`: what `step` does at T8 does not depend on
whether it goes by the instruction or by the rule. -/
def Obligations.FrameMeaningAgreesWithImageRule : Prop :=
  ∀ (s : State) (o a v : Byte) (i : Instr), decodeFrame (mkWord o a v) = .frame i →
    exec i s = .next (latchWindow (some [o, a, v]) s) ∧
    ∃ t, exec i s = .next t ∧ t.img = s.img.write a v

/-! ### The micro-steps of a transfer -/

/-- 41_transfer.md R151: T1 holds while `SEL = 1` and goes to T2 when `SEL = 0`, with no other effect. -/
def Obligations.T1WaitsForTheBus : Prop :=
  ∀ s : State, BlockAt .t1 s →
    step s = if s.bus.sel then .next (takeMove s) else .next (setMs .t2 (takeMove s))

/-- 41_transfer.md R152: T2, always enabled: `IRQ_EN <- 0; emit(IRQ_OFF); MS <- T3`. -/
def Obligations.T2DisablesTheInterrupt : Prop :=
  ∀ s : State, BlockAt .t2 s →
    step s = .next { takeMove s with
      bus := { s.bus with irqEn := false }, block := { s.block with ms := .t3 },
      trace := s.trace ++ [.irqOff] }

/-- 41_transfer.md R153: T3: `SEL <- 1; emit(SEL_LOW); BI <- 0; MS <- T4`. -/
def Obligations.T3SelectsTheSlave : Prop :=
  ∀ s : State, BlockAt .t3 s →
    step s = .next { takeMove s with
      bus := { s.bus with sel := true }, block := { s.block with ms := .t4, bi := 0 },
      trace := s.trace ++ [.selLow] }

/-- 41_transfer.md R154, R162: T4 holds while the FIFO has no space; with space it enqueues byte `BI`
(0 the opcode, 1 the address, 2 the value) and goes on to T5A after the third. -/
def Obligations.T4EnqueuesTheFrame : Prop :=
  ∀ (s : State) (b : Byte) (m : MicroStep), BlockAt .t4 s →
    (s.block.bi = 0 ∧ b = Config.opcodeWriteBuffer ∧ m = .t4 ∨
      s.block.bi = 1 ∧ b = s.block.pay0 ∧ m = .t4 ∨
      s.block.bi = 2 ∧ b = s.block.pay1 ∧ m = .t5a) →
    step s =
      if s.bus.txq.length < Config.fifoDepth then
        .next { takeMove s with
          bus := { s.bus with txq := s.bus.txq ++ [b] },
          block := { s.block with ms := m, bi := s.block.bi + 1 } }
      else .next (takeMove s)

/-- 41_transfer.md R155, R156: the completion barrier: T5A waits until the FIFO is empty, T5B until the
shift register is idle; neither has another effect. -/
def Obligations.T5WaitsForTheLastBit : Prop :=
  ∀ s : State,
    (BlockAt .t5a s → step s =
      if s.bus.txq = [] then .next (setMs .t5b (takeMove s)) else .next (takeMove s)) ∧
    (BlockAt .t5b s → step s =
      if s.bus.shift = none then .next (setMs .t6 (takeMove s)) else .next (takeMove s))

/-- 41_transfer.md R157: T6: `TC <- 0; emit(TC_CLR); MS <- T7T`. -/
def Obligations.T6ClearsTheCompletionFlag : Prop :=
  ∀ s : State, BlockAt .t6 s →
    step s = .next { takeMove s with
      bus := { s.bus with tc := false }, block := { s.block with ms := .t7t },
      trace := s.trace ++ [.tcClr] }

/-- 41_transfer.md R158, R159: T7T: `RFL <- 1; emit(RX_FLUSH); MS <- T7W`; T7W, enabled iff `RFL = 0`,
goes to T8. -/
def Obligations.T7FlushesTheReceivePath : Prop :=
  ∀ s : State,
    (BlockAt .t7t s → step s = .next { takeMove s with
      bus := { s.bus with rfl := true }, block := { s.block with ms := .t7w },
      trace := s.trace ++ [.rxFlush] }) ∧
    (BlockAt .t7w s → step s =
      if s.bus.rfl then .next (takeMove s) else .next (setMs .t8 (takeMove s)))

/-- 41_transfer.md R160, 20_memory.md R67, R86: T8, always enabled: `SEL <- 0; emit(SEL_HIGH); MS <- T9`,
and at this instant the slave takes the window that closes: the image becomes that of the longer
trace, if it was that of the trace before. -/
def Obligations.T8DeselectsAndTheSlaveLatches : Prop :=
  ∀ s : State, BlockAt .t8 s → ∃ t, step s = .next t ∧
    t.bus = { s.bus with sel := false } ∧ t.block = { s.block with ms := .t9 } ∧
    t.trace = s.trace ++ [.selHigh] ∧ t.timer = s.timer ∧ t.port = s.port ∧
    t.program = s.program ∧ t.rxDraws = s.rxDraws ∧
    (s.img = imageOf s.trace → t.img = imageOf (s.trace ++ [.selHigh]))

/-- 41_transfer.md R161: T9 sets the interrupt enable unconditionally, ends the item and goes to FETCH. -/
def Obligations.T9ReleasesTheBus : Prop :=
  ∀ s : State, BlockAt .t9 s →
    step s = .next { takeMove s with
      bus := { s.bus with irqEn := true },
      block := { s.block with ms := .fetch, fi := s.block.fi + 1 },
      trace := s.trace ++ [.irqOn] }

/-! ### The micro-steps of a wait, and FETCH -/

/-- 40_delay.md R132 to R134: WL loads both reload bytes of the unit, WC lowers the overflow flag, WS
starts the counter. -/
def Obligations.WaitIterationStartsTheCounter : Prop :=
  ∀ s : State,
    (BlockAt .wl s → step s = .next { takeMove s with
      timer := { s.timer with
        rlh := (Config.reload s.block.u).extractLsb' 8 8,
        rll := (Config.reload s.block.u).extractLsb' 0 8 },
      block := { s.block with ms := .wc } }) ∧
    (BlockAt .wc s → step s = .next { takeMove s with
      timer := { s.timer with ovf := false }, block := { s.block with ms := .ws } }) ∧
    (BlockAt .ws s → step s = .next { takeMove s with
      timer := { s.timer with run := true }, block := { s.block with ms := .wo } })

/-- 40_delay.md R135, R136: WO holds while `OVF = 0`; with `OVF = 1` and `DN >= 1` it leaves one TICK
and `DN - 1`, and goes to WL while that is above 0, else to WX; WX stops the counter, leaves
`TMR_STOP(U)` and ends the item. -/
def Obligations.WaitOverflowCountsAndStops : Prop :=
  ∀ s : State,
    (BlockAt .wo s → 1 ≤ s.block.dn.toNat → step s =
      if s.timer.ovf then
        .next { takeMove s with
          block := { s.block with
            dn := s.block.dn - 1, ms := if s.block.dn.toNat = 1 then .wx else .wl },
          trace := s.trace ++ [.tick s.block.u] }
      else .next (takeMove s)) ∧
    (BlockAt .wx s → step s = .next { takeMove s with
      timer := { s.timer with run := false },
      block := { s.block with ms := .fetch, fi := s.block.fi + 1 },
      trace := s.trace ++ [.tmrStop s.block.u] })

/-- 44_sequencer.md R216: FETCH ends the command at the end of its list, loads the payload of a frame,
or the unit and count of a wait, whose count 0 goes straight to the stop. -/
def Obligations.FetchLoadsTheItem : Prop :=
  ∀ (s : State) (l : List Item), BlockAt .fetch s → currentItems s = some l →
    (s.block.fi = l.length → step s = .next { takeMove s with
      block := { s.block with phase := .idle }, trace := s.trace ++ [.cmdDone] }) ∧
    (∀ a v, l[s.block.fi]? = some (.frame a v) → step s = .next { takeMove s with
      block := { s.block with pay0 := a, pay1 := v, ms := .t1 } }) ∧
    (∀ u n, l[s.block.fi]? = some (.wait u n) → step s = .next { takeMove s with
      block := { s.block with u := u, dn := n, ms := if n = 0 then .wx else .wl } })

/-! ### The environment -/

/-- 20_memory.md R81 to R83, 60_exceptions.md R262: PE1 moves the oldest byte of the FIFO into an idle shift register; PE2
puts the byte in the shift register on the wire, sets TC and receives a free byte (log 19); PE3 empties
the receive path and clears RFL; TE1 sets OVF when the counter runs and OVF is 0. Each does nothing
else, and nothing at all when not enabled. -/
def Obligations.BusPeripheralAndTimerSteps : Prop :=
  ∀ s : State,
    (nextMove s = .pe1 → step s = .next { takeMove s with bus :=
      match s.bus.shift, s.bus.txq with
      | none, b :: rest => { s.bus with shift := some b, txq := rest }
      | _, _ => s.bus }) ∧
    (nextMove s = .pe2 → ∀ b, s.bus.shift = some b → ∃ r, step s = .next { takeMove s with
      bus := { s.bus with shift := none, tc := true, rxq := s.bus.rxq ++ [r] },
      trace := s.trace ++ [.byte b], rxDraws := s.rxDraws + 1 }) ∧
    (nextMove s = .pe2 → s.bus.shift = none → step s = .next (takeMove s)) ∧
    (nextMove s = .pe3 → step s = .next { takeMove s with bus :=
      if s.bus.rfl then { s.bus with rxq := [], rfl := false } else s.bus }) ∧
    (nextMove s = .te1 → step s = .next { takeMove s with timer :=
      if s.timer.run = true ∧ s.timer.ovf = false then { s.timer with ovf := true } else s.timer })

/-- 10_state.md R24: the host offers its next word only when no offer stands, so an offered word is
neither changed nor dropped before it is taken; it touches the port and its own list alone. That the
host withdraws at acceptance is the model's choice (log 3). -/
def Obligations.HostOffersOneWordAtATime : Prop :=
  (∀ (s : State) (w : Word24) (rest : List Word24), nextMove s = .host → s.port.valid = false →
    s.program = w :: rest →
    step s = .next { takeMove s with port := { valid := true, word := w }, program := rest }) ∧
  (∀ s t : State, s.port.valid = true → step s = .next t →
    t.port = s.port ∨
      nextMove s = .block ∧ s.block.phase = .idle ∧ t.block.phase = .run ∧
        t.port.valid = false ∧ latchedWord t = s.port.word)

/-! ### Whole-machine rules -/

/-- 10_state.md R26, R27; 20_memory.md R84; 60_exceptions.md R242: no timeout: a step that is not
enabled does not happen, a wait step whose condition is false among them. That the model takes such a
turn as a step which changes nothing but its schedule is the model's choice (log 2); so stated it
holds from every state. -/
def Obligations.TurnsThatAreNotEnabledChangeNothing : Prop :=
  ∀ s : State, moveEnabled (nextMove s) s = false → step s = .next (takeMove s)

/-- 00_scope.md R12: the trace is only ever appended to, by one event at most; a BYTE is appended by the
bus peripheral's PE2 alone and every other event by the block. -/
def Obligations.TraceIsOnlyAppendedTo : Prop :=
  ∀ s t : State, step s = .next t →
    t.trace = s.trace ∨
    (nextMove s = .pe2 ∧ ∃ b, t.trace = s.trace ++ [.byte b]) ∨
    (nextMove s = .block ∧ ∃ e, (∀ b, e ≠ .byte b) ∧ t.trace = s.trace ++ [e])

/-- 10_state.md R39, R45; 20_memory.md R60; 60_exceptions.md R243: ownership: a turn of another agent
than the block changes no cell of the block, no SEL, no IRQ_EN and no slave register; the timer's and
the host's turns change no bus cell, the bus peripheral's no timer cell; a transfer's micro-steps
change no timer cell and a wait's no bus cell. -/
def Obligations.CellsHaveOneOwner : Prop :=
  ∀ s t : State, step s = .next t →
    (nextMove s ≠ .block → t.block = s.block ∧ t.bus.sel = s.bus.sel ∧
      t.bus.irqEn = s.bus.irqEn ∧ t.img = s.img) ∧
    (nextMove s = .te1 ∨ nextMove s = .host → t.bus = s.bus) ∧
    ((nextMove s).agent = .busp → t.timer = s.timer ∧ t.port = s.port) ∧
    (nextMove s = .block → s.block.phase = .run →
      s.block.ms ∈ [.wl, .wc, .ws, .wo, .wx] → t.bus = s.bus ∧ t.img = s.img) ∧
    (nextMove s = .block → s.block.phase = .run →
      s.block.ms ∉ [.wl, .wc, .ws, .wo, .wx] → t.timer = s.timer)

/-- 10_state.md R21, R23; 20_memory.md R91: the command latch is written by ACCEPT alone: it does not
change while a command runs, and PHASE leaves RUN only by FETCH at the end of the item list. -/
def Obligations.CommandsRunToTheirEnd : Prop :=
  ∀ s t : State, s.block.phase = .run → step s = .next t →
    t.block.op = s.block.op ∧ t.block.a = s.block.a ∧ t.block.b = s.block.b ∧
    (t.block.phase = .idle → BlockAt .fetch s ∧
      ∃ l, currentItems s = some l ∧ s.block.fi = l.length ∧ t.trace = s.trace ++ [.cmdDone])

/-- 10_state.md R20, "a model must not let any result depend on it": cells without a meaning, all but
PHASE in IDLE and those written before they are next read in RUN, cannot be told from any other value:
two states that differ only in them step to states that differ only in them. -/
def Obligations.MeaninglessCellsCannotBeObserved : Prop :=
  ∀ s t : State, erase s = erase t → eraseOutcome (step s) = eraseOutcome (step t)

/-! ### Invariants -/

/-- 41_transfer.md R166 (b), SEL of (e), and what (c) to (e) say inside a transfer; 10_state.md R32:
every step keeps the bus discipline. After a transfer: `StepKeepsTheBusReleased`. -/
def Obligations.StepKeepsTheBusDiscipline : Prop :=
  ∀ s t : State, BusInv s → step s = .next t → BusInv t

/-- 10_state.md R25, R27; 44_sequencer.md R216; 40_delay.md R134, R135: every step keeps the sequence
position on the item list of the latched command, and the counter running at WO. -/
def Obligations.StepKeepsTheSequencePosition : Prop :=
  ∀ s t : State, PositionInv s → TimerInv s → step s = .next t → PositionInv t ∧ TimerInv t

/-- 20_memory.md R88, 41_transfer.md R165, 40_delay.md R138: every step keeps the trace that of whole
commands in the order they were taken, each item's events exactly those of its rule, and of the part
done so far of the command in progress, for every interleaving and every FIFO depth. -/
def Obligations.StepKeepsTheTraceInProgramOrder : Prop :=
  ∀ s t : State, BusInv s → PositionInv s → TraceInv s → step s = .next t → TraceInv t

/-- 20_memory.md R67, R86; 42_register_protocol.md R188: every step, from every state, keeps the slave
image canonical and equal to the function `img(TRACE)`, and a recorded intensity above 15 marked. -/
def Obligations.StepKeepsTheImageOfTheTrace : Prop :=
  ∀ s t : State, ImageInv s → MarkInv s → step s = .next t → ImageInv t ∧ MarkInv t

/-- 60_exceptions.md R240: the block raises no exception: under the invariant no step faults. -/
def Obligations.NoStepFaults : Prop :=
  ∀ (s : State) (f : Fault), BusInv s → PositionInv s → step s ≠ .fault f

/-- 20_memory.md R84, R89: with the launch premises kept, a running command can always go on: some turn
of the block, the bus peripheral or the timer is enabled. A hang is an environment that does not take
its enabled step, never a dead end of the machine. -/
def Obligations.RunningCommandIsNeverStuck : Prop :=
  ∀ s : State, BusInv s → TimerInv s → ¬ Stuck s

/-- 44_sequencer.md R217, 70_reset_and_hazards.md R301: every enabled block step of a running command
brings it one step nearer to its end, and no turn of another agent changes how many are left. -/
def Obligations.BlockStepsCountDown : Prop :=
  ∀ s : State, BusInv s → PositionInv s → s.block.phase = .run →
    (nextMove s = .block → blockEnabled s = true →
      ∃ t, step s = .next t ∧ stepsLeft t + 1 = stepsLeft s) ∧
    (nextMove s ≠ .block → ∃ t, step s = .next t ∧ stepsLeft t = stepsLeft s)

/-- 44_sequencer.md R217, 70_reset_and_hazards.md R301: how many block steps each command takes after
it is taken. -/
def Obligations.StepCountsOfTheCommands : Prop :=
  ∀ (s t : State) (i : Instr), s.block.phase = .idle → i.format = .cmd24 → exec i s = .next t →
    stepsLeft t =
      match i with
      | .clrDisp => 113
      | .initDisp => 183
      | .selfTest => 8443
      | .waitUs n => 4 * n.toNat + 3
      | .waitMs n => 4 * n.toNat + 3
      | _ => 15

/-! ### What a run shows -/

/-- 41_transfer.md R166 (a), (f); 20_memory.md R88 (d), (e): in the trace of completed commands every
window is the three bytes of one FRAME item, in order, with no stray byte and no window left open, and
the view is that of the items of the commands in the order they were taken, the waits in their
places. -/
def Obligations.ViewIsTheItemsOfTheCommands : Prop :=
  ∀ ws : List Word24, Accepted ws →
    windows (ws.flatMap commandEvents) = ws.flatMap (fun w => (itemsOrNone w).flatMap itemWindows) ∧
    strayBytes (ws.flatMap commandEvents) = 0 ∧ openWindow (ws.flatMap commandEvents) = none ∧
    view (ws.flatMap commandEvents) = ws.flatMap (fun w => (itemsOrNone w).map itemView)

/-- 20_memory.md R86, R88: the slave image after completed commands is that of their register writes in
order. -/
def Obligations.ImageIsTheRegisterWritesInOrder : Prop :=
  ∀ ws : List Word24, Accepted ws →
    imageOf (ws.flatMap commandEvents) = imageAfter [] (ws.flatMap itemsOrNone)

/-- 20_memory.md R68 and 95_test_vectors.md E5: after any completed commands, a second CLRDISP leaves
the image the first left, every digit register blank, and every register but the digits as before. -/
def Obligations.ClrDispIsIdempotent : Prop :=
  ∀ ws : List Word24, Accepted ws →
    let once := imageOf ((ws ++ [0x020000]).flatMap commandEvents)
    imageOf ((ws ++ [0x020000, 0x020000]).flatMap commandEvents) = once ∧
    (∀ p : Byte, 1 ≤ p.toNat → p.toNat ≤ 8 → once.read p = some 0x00) ∧
    (∀ a : Byte, a.toNat = 0 ∨ 8 < a.toNat →
      once.read a = (imageOf (ws.flatMap commandEvents)).read a)

/-- 44_sequencer.md R224, 70_reset_and_hazards.md R285, R290 to R292: after INITDISP, whatever came
before, the image says the display is ready, every digit is blank and the intensity is the default. -/
def Obligations.InitDispMakesTheDisplayReady : Prop :=
  ∀ ws : List Word24, Accepted ws →
    let m := imageOf ((ws ++ [0x010000]).flatMap commandEvents)
    DisplayReady m ∧ m.read Config.addrScanLimit = some 0x07 ∧
    m.read Config.addrIntensity = some Config.intensityDefault ∧
    ∀ p : Byte, 1 ≤ p.toNat → p.toNat ≤ 8 → m.read p = some 0x00

/-- 20_memory.md R84, R88 (c); 44_sequencer.md R217: from every idle state that meets the invariant,
every in-contract command is taken and, when the environment takes its steps, runs to CMD_DONE: some
schedule of turns leads to an idle state whose trace has grown by exactly that command's events, and
which meets the invariant again. -/
def Obligations.EveryCommandRunsToCompletion : Prop :=
  ∀ (s : State) (i : Instr), Inv s → s.block.phase = .idle → i.format = .cmd24 →
    i.wellFormed = true →
    ∃ t, exec i s = .next t ∧ ∃ (turns : List Move) (u : State),
      Host.Core.run Sys2Proof.core turns.length { t with sched := turns } = .next u ∧
      u.block.phase = .idle ∧ u.trace = s.trace ++ commandEvents (encode i) ∧ Inv u

/-! ### The bus after a completed transfer -/

/-- 41_transfer.md R166 (c) to (e), 70_reset_and_hazards.md R297: every step keeps the bus released
after a completed transfer: `IRQ_EN = 1` exactly outside T2 (after) to T9 (before), `TC = 0` until the
next byte is shifted, `RXQ = []` until the next T4. The T9 of the first transfer establishes it. -/
def Obligations.StepKeepsTheBusReleased : Prop :=
  ∀ s t : State, BusInv s → ReleasedInv s → step s = .next t → ReleasedInv t
end

