-- ==== Sys2Proof/Laws/Decode.lean ====
section
/-! SUPPORT. The fields of a word built of bytes, and a word from its fields. -/

namespace Sys2Proof

@[simp] theorem fieldHi_mkWord (x y z : Byte) : fieldHi (mkWord x y z) = x := by
  simp only [fieldHi, mkWord]
  ext i hi
  simp; grind

@[simp] theorem fieldMid_mkWord (x y z : Byte) : fieldMid (mkWord x y z) = y := by
  simp only [fieldMid, mkWord]
  ext i hi
  simp; grind

@[simp] theorem fieldLo_mkWord (x y z : Byte) : fieldLo (mkWord x y z) = z := by
  simp only [fieldLo, mkWord]
  ext i hi
  simp; grind

/-- A word is its three fields. -/
theorem mkWord_fields (w : Word24) : mkWord (fieldHi w) (fieldMid w) (fieldLo w) = w := by
  simp only [fieldHi, fieldMid, fieldLo, mkWord]
  ext i hi
  simp; grind

/-- Two words are equal when their fields are. -/
theorem mkWord_inj (x y z x' y' z' : Byte) :
    mkWord x y z = mkWord x' y' z' ↔ x = x' ∧ y = y' ∧ z = z' := by
  constructor
  · intro h
    exact ⟨by simpa using congrArg fieldHi h, by simpa using congrArg fieldMid h,
      by simpa using congrArg fieldLo h⟩
  · rintro ⟨rfl, rfl, rfl⟩; rfl

@[simp] theorem countHi_mkCount (x y : Byte) : countHi (mkCount x y) = x := by
  simp only [countHi, mkCount]
  ext i hi
  simp; grind

@[simp] theorem countLo_mkCount (x y : Byte) : countLo (mkCount x y) = y := by
  simp only [countLo, mkCount]
  ext i hi
  simp; grind

/-- A count is its two bytes. -/
@[simp] theorem mkCount_countHi_countLo (n : Word16) : mkCount (countHi n) (countLo n) = n := by
  simp only [countHi, countLo, mkCount]
  ext i hi
  simp; grind

end Sys2Proof
end

