-- ==== Sys2Proof/Laws/Memory.lean ====
section
/-! SUPPORT. The slave register space: a write reads back, leaves every other address alone, and keeps
the canonical form. -/

namespace Sys2Proof.Machine

@[simp] theorem Memory.read_write_same (m : Memory) (a v : Byte) :
    (m.write a v).read a = some v := by
  induction m with
  | nil => simp [Memory.write, Memory.read]
  | cons c rest ih =>
    obtain ⟨k, x⟩ := c
    unfold Memory.write
    split
    · simp [Memory.read]
    · split
      · simp_all [Memory.read]
      · next h1 h2 => simp [Memory.read, ih, Ne.symm h2]

theorem Memory.read_write_other (m : Memory) (a v x : Byte) (h : x ≠ a) :
    (m.write a v).read x = m.read x := by
  have hn : a.toNat ≠ x.toNat := fun he => h (BitVec.eq_of_toNat_eq he.symm)
  induction m with
  | nil => simp [Memory.write, Memory.read, hn]
  | cons c rest ih =>
    obtain ⟨k, y⟩ := c
    unfold Memory.write
    split
    · simp [Memory.read, hn]
    · split
      · next _ h2 => subst h2; simp [Memory.read, hn]
      · simp [Memory.read, ih]

/-- The canonical form, said as a property. -/
theorem Memory.wf_iff (m : Memory) :
    m.wf = true ↔ m.Pairwise (fun x y => x.1 < y.1) ∧ ∀ c ∈ m, c.1 < 256 := by
  simp [Memory.wf]

/-- Every key of a written memory is the written address or a key of before. -/
theorem Memory.mem_write (m : Memory) (a v : Byte) (c : Host.Cell) (h : c ∈ m.write a v) :
    c.1 = a.toNat ∨ ∃ d ∈ m, d.1 = c.1 := by
  induction m with
  | nil => simp [Memory.write] at h; simp [h]
  | cons d rest ih =>
    obtain ⟨k, x⟩ := d
    unfold Memory.write at h
    split at h
    · simp only [List.mem_cons] at h
      rcases h with rfl | rfl | h
      · exact .inl rfl
      · exact .inr ⟨_, by simp, rfl⟩
      · exact .inr ⟨c, by simp [h], rfl⟩
    · split at h
      · next _ h2 =>
        simp only [List.mem_cons] at h
        rcases h with rfl | h
        · exact .inl h2.symm
        · exact .inr ⟨c, by simp [h], rfl⟩
      · simp only [List.mem_cons] at h
        rcases h with rfl | h
        · exact .inr ⟨_, by simp, rfl⟩
        · rcases ih h with h | ⟨d, hd, he⟩
          · exact .inl h
          · exact .inr ⟨d, by simp [hd], he⟩

/-- Every memory operation keeps the canonical form: `write` is the only one. -/
theorem Memory.wf_write (m : Memory) (a v : Byte) (h : m.wf = true) : (m.write a v).wf = true := by
  rw [Memory.wf_iff] at h ⊢
  obtain ⟨hp, hb⟩ := h
  refine ⟨?_, fun c hc => ?_⟩
  · clear hb
    induction m with
    | nil => simp [Memory.write]
    | cons d rest ih =>
      obtain ⟨k, x⟩ := d
      rw [List.pairwise_cons] at hp
      unfold Memory.write
      split
      · next h1 =>
        rw [List.pairwise_cons, List.pairwise_cons]
        refine ⟨fun y hy => ?_, hp⟩
        simp only [List.mem_cons] at hy
        rcases hy with rfl | hy
        · exact h1
        · exact lt_trans h1 (hp.1 y hy)
      · split
        · exact List.pairwise_cons.2 hp
        · next h1 h2 =>
          refine List.pairwise_cons.2 ⟨fun y hy => ?_, ih hp.2⟩
          rcases Memory.mem_write rest a v y hy with h | ⟨d, hd, he⟩
          · show k < y.1; omega
          · have := hp.1 d hd; show k < y.1; simp only at this; omega
  · rcases Memory.mem_write m a v c hc with h | ⟨d, hd, he⟩
    · rw [h]; exact a.isLt
    · rw [← he]; exact hb d hd

theorem Memory.wf_nil : Memory.wf [] = true := by decide

/-- The reset memory has the canonical form. -/
theorem reset_img_wf : State.reset.img.wf = true := Memory.wf_nil

/-- The slave's latch keeps it. -/
theorem latchPair_wf (a v : Byte) (s : State) (h : s.img.wf = true) :
    (latchPair a v s).img.wf = true := by
  unfold latchPair
  split <;> exact Memory.wf_write _ _ _ h

/-- The image of any trace is canonical. -/
theorem imageOf_wf (tr : List Event) : (imageOf tr).wf = true := by
  unfold imageOf
  suffices h : ∀ (ws : List (List Byte)) (m : Memory), m.wf = true → (ws.foldl imageStep m).wf = true by
    exact h _ _ Memory.wf_nil
  intro ws
  induction ws with
  | nil => exact fun m h => h
  | cons w rest ih =>
    intro m h
    refine ih _ ?_
    unfold imageStep
    split
    · exact Memory.wf_write _ _ _ h
    · exact h

end Sys2Proof.Machine
end

