-- ==== Sys2Proof/Laws/PerInstr.lean ====
section
/-! SUPPORT. For every instruction: the word the encoder gives it matches its own row of
spec/opcode_table.json, `w & mask = match` (spec/30_encoding.md R102, R110). -/

namespace Sys2Proof

/-- Masking a word made of three bytes masks each byte. -/
theorem mkWord_and (x y z x' y' z' : Byte) :
    mkWord x y z &&& mkWord x' y' z' = mkWord (x &&& x') (y &&& y') (z &&& z') := by
  simp only [mkWord]
  ext i hi
  simp only [BitVec.getElem_and, BitVec.getElem_append]
  grind

/-- The word of an instruction matches its row. -/
def Laws.EncodingRow.Statement (i : Instr) : Prop :=
  encode i &&& (tableRow i).1 = (tableRow i).2

/-- A mask byte of ones keeps the byte. -/
theorem and_ones (x : Byte) : x &&& 0xFF = x := BitVec.and_allOnes

/-- A mask byte of zeros clears it. -/
theorem and_zeros (x : Byte) : x &&& 0 = 0 := BitVec.and_zero

/-- A command row that fixes `OP` alone. -/
theorem Laws.EncodingRow.opcode_row (op a b : Byte) :
    mkWord op a b &&& mkWord 0xFF 0 0 = mkWord op 0 0 := by
  rw [mkWord_and, and_ones, and_zeros, and_zeros]

/-- A command row that fixes `OP` and `A`. -/
theorem Laws.EncodingRow.operand_row (op a b : Byte) :
    mkWord op a b &&& mkWord 0xFF 0xFF 0 = mkWord op a 0 := by
  rw [mkWord_and, and_ones, and_ones, and_zeros]

/-- A frame row fixes the address alone. -/
theorem Laws.EncodingRow.address_row (o a v : Byte) :
    mkWord o a v &&& mkWord 0 0xFF 0 = mkWord 0 a 0 := by
  rw [mkWord_and, and_ones, and_zeros, and_zeros]

theorem Laws.EncodingRow.initDisp :
    Laws.EncodingRow.Statement (.initDisp) := rfl

theorem Laws.EncodingRow.clrDisp :
    Laws.EncodingRow.Statement (.clrDisp) := rfl

theorem Laws.EncodingRow.setScan :
    Laws.EncodingRow.Statement (.setScan) := rfl

theorem Laws.EncodingRow.setDecode :
    Laws.EncodingRow.Statement (.setDecode) := rfl

theorem Laws.EncodingRow.setShdn (mode : ShdnMode) :
    Laws.EncodingRow.Statement (.setShdn mode) := by
  cases mode <;> rfl

theorem Laws.EncodingRow.setTest (mode : TestMode) :
    Laws.EncodingRow.Statement (.setTest mode) := by
  cases mode <;> rfl

theorem Laws.EncodingRow.setInt (level : Byte) :
    Laws.EncodingRow.Statement (.setInt level) :=
  Laws.EncodingRow.operand_row _ _ _

theorem Laws.EncodingRow.setDigit (value position : Byte) :
    Laws.EncodingRow.Statement (.setDigit value position) :=
  Laws.EncodingRow.opcode_row _ _ _

theorem Laws.EncodingRow.setGlyph (pattern position : Byte) :
    Laws.EncodingRow.Statement (.setGlyph pattern position) :=
  Laws.EncodingRow.opcode_row _ _ _

theorem Laws.EncodingRow.selfTest :
    Laws.EncodingRow.Statement (.selfTest) := rfl

theorem Laws.EncodingRow.waitUs (n : Word16) :
    Laws.EncodingRow.Statement (.waitUs n) :=
  Laws.EncodingRow.opcode_row _ _ _

theorem Laws.EncodingRow.waitMs (n : Word16) :
    Laws.EncodingRow.Statement (.waitMs n) :=
  Laws.EncodingRow.opcode_row _ _ _

theorem Laws.EncodingRow.fNoop (o v : Byte) :
    Laws.EncodingRow.Statement (.fNoop o v) :=
  Laws.EncodingRow.address_row _ _ _

theorem Laws.EncodingRow.fDigit1 (o v : Byte) :
    Laws.EncodingRow.Statement (.fDigit1 o v) :=
  Laws.EncodingRow.address_row _ _ _

theorem Laws.EncodingRow.fDigit2 (o v : Byte) :
    Laws.EncodingRow.Statement (.fDigit2 o v) :=
  Laws.EncodingRow.address_row _ _ _

theorem Laws.EncodingRow.fDigit3 (o v : Byte) :
    Laws.EncodingRow.Statement (.fDigit3 o v) :=
  Laws.EncodingRow.address_row _ _ _

theorem Laws.EncodingRow.fDigit4 (o v : Byte) :
    Laws.EncodingRow.Statement (.fDigit4 o v) :=
  Laws.EncodingRow.address_row _ _ _

theorem Laws.EncodingRow.fDigit5 (o v : Byte) :
    Laws.EncodingRow.Statement (.fDigit5 o v) :=
  Laws.EncodingRow.address_row _ _ _

theorem Laws.EncodingRow.fDigit6 (o v : Byte) :
    Laws.EncodingRow.Statement (.fDigit6 o v) :=
  Laws.EncodingRow.address_row _ _ _

theorem Laws.EncodingRow.fDigit7 (o v : Byte) :
    Laws.EncodingRow.Statement (.fDigit7 o v) :=
  Laws.EncodingRow.address_row _ _ _

theorem Laws.EncodingRow.fDigit8 (o v : Byte) :
    Laws.EncodingRow.Statement (.fDigit8 o v) :=
  Laws.EncodingRow.address_row _ _ _

theorem Laws.EncodingRow.fDecode (o v : Byte) :
    Laws.EncodingRow.Statement (.fDecode o v) :=
  Laws.EncodingRow.address_row _ _ _

theorem Laws.EncodingRow.fIntensity (o v : Byte) :
    Laws.EncodingRow.Statement (.fIntensity o v) :=
  Laws.EncodingRow.address_row _ _ _

theorem Laws.EncodingRow.fScanLimit (o v : Byte) :
    Laws.EncodingRow.Statement (.fScanLimit o v) :=
  Laws.EncodingRow.address_row _ _ _

theorem Laws.EncodingRow.fShutdown (o v : Byte) :
    Laws.EncodingRow.Statement (.fShutdown o v) :=
  Laws.EncodingRow.address_row _ _ _

theorem Laws.EncodingRow.fDispTest (o v : Byte) :
    Laws.EncodingRow.Statement (.fDispTest o v) :=
  Laws.EncodingRow.address_row _ _ _

end Sys2Proof
end

