-- ==== Sys2Proof/Laws/State.lean ====
section
/-! SUPPORT. For each named update of the state, what each field reads afterwards. A proof cites these
instead of unfolding a record update. -/

namespace Sys2Proof.Machine

@[simp] theorem emit_block (e : Event) (s : State) :
    (emit e s).block = s.block := rfl
@[simp] theorem emit_bus (e : Event) (s : State) :
    (emit e s).bus = s.bus := rfl
@[simp] theorem emit_timer (e : Event) (s : State) :
    (emit e s).timer = s.timer := rfl
@[simp] theorem emit_port (e : Event) (s : State) :
    (emit e s).port = s.port := rfl
@[simp] theorem emit_program (e : Event) (s : State) :
    (emit e s).program = s.program := rfl
@[simp] theorem emit_img (e : Event) (s : State) :
    (emit e s).img = s.img := rfl
@[simp] theorem emit_trace (e : Event) (s : State) :
    (emit e s).trace = s.trace ++ [e] := rfl
@[simp] theorem emit_intMark (e : Event) (s : State) :
    (emit e s).intMark = s.intMark := rfl
@[simp] theorem emit_sched (e : Event) (s : State) :
    (emit e s).sched = s.sched := rfl
@[simp] theorem emit_moveDraws (e : Event) (s : State) :
    (emit e s).moveDraws = s.moveDraws := rfl
@[simp] theorem emit_rxDraws (e : Event) (s : State) :
    (emit e s).rxDraws = s.rxDraws := rfl

@[simp] theorem setMs_block (m : MicroStep) (s : State) :
    (setMs m s).block = { s.block with ms := m } := rfl
@[simp] theorem setMs_bus (m : MicroStep) (s : State) :
    (setMs m s).bus = s.bus := rfl
@[simp] theorem setMs_timer (m : MicroStep) (s : State) :
    (setMs m s).timer = s.timer := rfl
@[simp] theorem setMs_port (m : MicroStep) (s : State) :
    (setMs m s).port = s.port := rfl
@[simp] theorem setMs_program (m : MicroStep) (s : State) :
    (setMs m s).program = s.program := rfl
@[simp] theorem setMs_img (m : MicroStep) (s : State) :
    (setMs m s).img = s.img := rfl
@[simp] theorem setMs_trace (m : MicroStep) (s : State) :
    (setMs m s).trace = s.trace := rfl
@[simp] theorem setMs_intMark (m : MicroStep) (s : State) :
    (setMs m s).intMark = s.intMark := rfl
@[simp] theorem setMs_sched (m : MicroStep) (s : State) :
    (setMs m s).sched = s.sched := rfl
@[simp] theorem setMs_moveDraws (m : MicroStep) (s : State) :
    (setMs m s).moveDraws = s.moveDraws := rfl
@[simp] theorem setMs_rxDraws (m : MicroStep) (s : State) :
    (setMs m s).rxDraws = s.rxDraws := rfl

@[simp] theorem endItem_block (s : State) :
    (endItem s).block = { s.block with fi := s.block.fi + 1, ms := .fetch } := rfl
@[simp] theorem endItem_bus (s : State) :
    (endItem s).bus = s.bus := rfl
@[simp] theorem endItem_timer (s : State) :
    (endItem s).timer = s.timer := rfl
@[simp] theorem endItem_port (s : State) :
    (endItem s).port = s.port := rfl
@[simp] theorem endItem_program (s : State) :
    (endItem s).program = s.program := rfl
@[simp] theorem endItem_img (s : State) :
    (endItem s).img = s.img := rfl
@[simp] theorem endItem_trace (s : State) :
    (endItem s).trace = s.trace := rfl
@[simp] theorem endItem_intMark (s : State) :
    (endItem s).intMark = s.intMark := rfl
@[simp] theorem endItem_sched (s : State) :
    (endItem s).sched = s.sched := rfl
@[simp] theorem endItem_moveDraws (s : State) :
    (endItem s).moveDraws = s.moveDraws := rfl
@[simp] theorem endItem_rxDraws (s : State) :
    (endItem s).rxDraws = s.rxDraws := rfl

@[simp] theorem latchRegister_block (a v : Byte) (s : State) :
    (latchRegister a v s).block = s.block := rfl
@[simp] theorem latchRegister_bus (a v : Byte) (s : State) :
    (latchRegister a v s).bus = s.bus := rfl
@[simp] theorem latchRegister_timer (a v : Byte) (s : State) :
    (latchRegister a v s).timer = s.timer := rfl
@[simp] theorem latchRegister_port (a v : Byte) (s : State) :
    (latchRegister a v s).port = s.port := rfl
@[simp] theorem latchRegister_program (a v : Byte) (s : State) :
    (latchRegister a v s).program = s.program := rfl
@[simp] theorem latchRegister_img (a v : Byte) (s : State) :
    (latchRegister a v s).img = s.img.write a v := rfl
@[simp] theorem latchRegister_trace (a v : Byte) (s : State) :
    (latchRegister a v s).trace = s.trace := rfl
@[simp] theorem latchRegister_intMark (a v : Byte) (s : State) :
    (latchRegister a v s).intMark = s.intMark := rfl
@[simp] theorem latchRegister_sched (a v : Byte) (s : State) :
    (latchRegister a v s).sched = s.sched := rfl
@[simp] theorem latchRegister_moveDraws (a v : Byte) (s : State) :
    (latchRegister a v s).moveDraws = s.moveDraws := rfl
@[simp] theorem latchRegister_rxDraws (a v : Byte) (s : State) :
    (latchRegister a v s).rxDraws = s.rxDraws := rfl

@[simp] theorem markIntensity_block (l : Byte) (s : State) :
    (markIntensity l s).block = s.block := rfl
@[simp] theorem markIntensity_bus (l : Byte) (s : State) :
    (markIntensity l s).bus = s.bus := rfl
@[simp] theorem markIntensity_timer (l : Byte) (s : State) :
    (markIntensity l s).timer = s.timer := rfl
@[simp] theorem markIntensity_port (l : Byte) (s : State) :
    (markIntensity l s).port = s.port := rfl
@[simp] theorem markIntensity_program (l : Byte) (s : State) :
    (markIntensity l s).program = s.program := rfl
@[simp] theorem markIntensity_img (l : Byte) (s : State) :
    (markIntensity l s).img = s.img := rfl
@[simp] theorem markIntensity_trace (l : Byte) (s : State) :
    (markIntensity l s).trace = s.trace := rfl
@[simp] theorem markIntensity_intMark (l : Byte) (s : State) :
    (markIntensity l s).intMark = (s.intMark || 15 < l.toNat) := rfl
@[simp] theorem markIntensity_sched (l : Byte) (s : State) :
    (markIntensity l s).sched = s.sched := rfl
@[simp] theorem markIntensity_moveDraws (l : Byte) (s : State) :
    (markIntensity l s).moveDraws = s.moveDraws := rfl
@[simp] theorem markIntensity_rxDraws (l : Byte) (s : State) :
    (markIntensity l s).rxDraws = s.rxDraws := rfl

@[simp] theorem withdrawOffer_block (s : State) :
    (withdrawOffer s).block = s.block := rfl
@[simp] theorem withdrawOffer_bus (s : State) :
    (withdrawOffer s).bus = s.bus := rfl
@[simp] theorem withdrawOffer_timer (s : State) :
    (withdrawOffer s).timer = s.timer := rfl
@[simp] theorem withdrawOffer_port (s : State) :
    (withdrawOffer s).port = { s.port with valid := false } := rfl
@[simp] theorem withdrawOffer_program (s : State) :
    (withdrawOffer s).program = s.program := rfl
@[simp] theorem withdrawOffer_img (s : State) :
    (withdrawOffer s).img = s.img := rfl
@[simp] theorem withdrawOffer_trace (s : State) :
    (withdrawOffer s).trace = s.trace := rfl
@[simp] theorem withdrawOffer_intMark (s : State) :
    (withdrawOffer s).intMark = s.intMark := rfl
@[simp] theorem withdrawOffer_sched (s : State) :
    (withdrawOffer s).sched = s.sched := rfl
@[simp] theorem withdrawOffer_moveDraws (s : State) :
    (withdrawOffer s).moveDraws = s.moveDraws := rfl
@[simp] theorem withdrawOffer_rxDraws (s : State) :
    (withdrawOffer s).rxDraws = s.rxDraws := rfl

@[simp] theorem latchCommand_block (w : Word24) (s : State) :
    (latchCommand w s).block = { s.block with op := fieldHi w, a := fieldMid w, b := fieldLo w, fi := 0, ms := .fetch, phase := .run } := rfl
@[simp] theorem latchCommand_bus (w : Word24) (s : State) :
    (latchCommand w s).bus = s.bus := rfl
@[simp] theorem latchCommand_timer (w : Word24) (s : State) :
    (latchCommand w s).timer = s.timer := rfl
@[simp] theorem latchCommand_port (w : Word24) (s : State) :
    (latchCommand w s).port = s.port := rfl
@[simp] theorem latchCommand_program (w : Word24) (s : State) :
    (latchCommand w s).program = s.program := rfl
@[simp] theorem latchCommand_img (w : Word24) (s : State) :
    (latchCommand w s).img = s.img := rfl
@[simp] theorem latchCommand_trace (w : Word24) (s : State) :
    (latchCommand w s).trace = s.trace ++ [.cmdAccept w] := rfl
@[simp] theorem latchCommand_intMark (w : Word24) (s : State) :
    (latchCommand w s).intMark = s.intMark := rfl
@[simp] theorem latchCommand_sched (w : Word24) (s : State) :
    (latchCommand w s).sched = s.sched := rfl
@[simp] theorem latchCommand_moveDraws (w : Word24) (s : State) :
    (latchCommand w s).moveDraws = s.moveDraws := rfl
@[simp] theorem latchCommand_rxDraws (w : Word24) (s : State) :
    (latchCommand w s).rxDraws = s.rxDraws := rfl

@[simp] theorem finishCommand_block (s : State) :
    (finishCommand s).block = { s.block with phase := .idle } := rfl
@[simp] theorem finishCommand_bus (s : State) :
    (finishCommand s).bus = s.bus := rfl
@[simp] theorem finishCommand_timer (s : State) :
    (finishCommand s).timer = s.timer := rfl
@[simp] theorem finishCommand_port (s : State) :
    (finishCommand s).port = s.port := rfl
@[simp] theorem finishCommand_program (s : State) :
    (finishCommand s).program = s.program := rfl
@[simp] theorem finishCommand_img (s : State) :
    (finishCommand s).img = s.img := rfl
@[simp] theorem finishCommand_trace (s : State) :
    (finishCommand s).trace = s.trace ++ [.cmdDone] := rfl
@[simp] theorem finishCommand_intMark (s : State) :
    (finishCommand s).intMark = s.intMark := rfl
@[simp] theorem finishCommand_sched (s : State) :
    (finishCommand s).sched = s.sched := rfl
@[simp] theorem finishCommand_moveDraws (s : State) :
    (finishCommand s).moveDraws = s.moveDraws := rfl
@[simp] theorem finishCommand_rxDraws (s : State) :
    (finishCommand s).rxDraws = s.rxDraws := rfl

@[simp] theorem deselect_block (s : State) :
    (deselect s).block = { s.block with ms := .t9 } := rfl
@[simp] theorem deselect_bus (s : State) :
    (deselect s).bus = { s.bus with sel := false } := rfl
@[simp] theorem deselect_timer (s : State) :
    (deselect s).timer = s.timer := rfl
@[simp] theorem deselect_port (s : State) :
    (deselect s).port = s.port := rfl
@[simp] theorem deselect_program (s : State) :
    (deselect s).program = s.program := rfl
@[simp] theorem deselect_img (s : State) :
    (deselect s).img = s.img := rfl
@[simp] theorem deselect_trace (s : State) :
    (deselect s).trace = s.trace ++ [.selHigh] := rfl
@[simp] theorem deselect_intMark (s : State) :
    (deselect s).intMark = s.intMark := rfl
@[simp] theorem deselect_sched (s : State) :
    (deselect s).sched = s.sched := rfl
@[simp] theorem deselect_moveDraws (s : State) :
    (deselect s).moveDraws = s.moveDraws := rfl
@[simp] theorem deselect_rxDraws (s : State) :
    (deselect s).rxDraws = s.rxDraws := rfl

@[simp] theorem takeMove_block (s : State) : (takeMove s).block = s.block := by
  unfold takeMove; split <;> rfl
@[simp] theorem takeMove_bus (s : State) : (takeMove s).bus = s.bus := by
  unfold takeMove; split <;> rfl
@[simp] theorem takeMove_timer (s : State) : (takeMove s).timer = s.timer := by
  unfold takeMove; split <;> rfl
@[simp] theorem takeMove_port (s : State) : (takeMove s).port = s.port := by
  unfold takeMove; split <;> rfl
@[simp] theorem takeMove_program (s : State) : (takeMove s).program = s.program := by
  unfold takeMove; split <;> rfl
@[simp] theorem takeMove_img (s : State) : (takeMove s).img = s.img := by
  unfold takeMove; split <;> rfl
@[simp] theorem takeMove_trace (s : State) : (takeMove s).trace = s.trace := by
  unfold takeMove; split <;> rfl
@[simp] theorem takeMove_intMark (s : State) : (takeMove s).intMark = s.intMark := by
  unfold takeMove; split <;> rfl
@[simp] theorem takeMove_rxDraws (s : State) : (takeMove s).rxDraws = s.rxDraws := by
  unfold takeMove; split <;> rfl

/-- The schedule loses its first entry, and an empty one stays empty. -/
@[simp] theorem takeMove_sched (s : State) : (takeMove s).sched = s.sched.tail := by
  unfold takeMove; split <;> simp_all

/-- A free move is drawn exactly when the schedule is empty. -/
@[simp] theorem takeMove_moveDraws (s : State) :
    (takeMove s).moveDraws = s.moveDraws + (if s.sched = [] then 1 else 0) := by
  unfold takeMove; split <;> simp_all

/-- The move a listed schedule names. -/
@[simp] theorem nextMove_cons (s : State) (m : Move) (ms : List Move) :
    nextMove { s with sched := m :: ms } = m := rfl

/-- Taking a listed move. -/
@[simp] theorem takeMove_cons (s : State) (m : Move) (ms : List Move) :
    takeMove { s with sched := m :: ms } = { s with sched := ms } := rfl

end Sys2Proof.Machine
end

