-- ==== Sys2Proof/Laws/Steps.lean ====
section
/-! SUPPORT. For each shared operation and each waiting micro-step, everything it can answer, said once;
and the one inversion lemma of `step`. -/

namespace Sys2Proof.Machine

variable {s t : State}

/-- Taking a command: nothing happens while one runs, an in-contract one is latched when idle. -/
theorem acceptCommand_next {i : Instr} (h : acceptCommand i s = .next t) :
    (s.block.phase = .run ∧ t = s) ∨
    (s.block.phase = .idle ∧ i.wellFormed = true ∧ t = latchCommand (encode i) s) := by
  unfold acceptCommand hold at h
  split at h
  · exact .inl ⟨by assumption, by simpa using h.symm⟩
  · split at h
    · exact .inr ⟨by assumption, by assumption, by simpa using h.symm⟩
    · cases h

/-- An idle block takes an in-contract command. -/
theorem acceptCommand_idle {i : Instr} (hi : s.block.phase = .idle) (hw : i.wellFormed = true) :
    acceptCommand i s = .next (latchCommand (encode i) s) := by
  simp [acceptCommand, hi, hw]

/-- A busy block takes none. -/
theorem acceptCommand_run {i : Instr} (hr : s.block.phase = .run) :
    acceptCommand i s = .next s := by
  simp [acceptCommand, hr, hold]

/-- Taking a command never faults. -/
theorem acceptCommand_ne_fault {i : Instr} {f : Fault} : acceptCommand i s ≠ .fault f := by
  unfold acceptCommand hold
  split
  · simp
  · split <;> simp

/-- The latch holds the fields of the word (10_state.md R21). -/
theorem latchedWord_latchCommand (w : Word24) (s : State) :
    latchedWord (latchCommand w s) = mkWord (fieldHi w) (fieldMid w) (fieldLo w) := rfl

/-- What the slave's latch leaves: the register written, the mark possibly set, nothing else. -/
theorem latchPair_eq (a v : Byte) (s : State) :
    latchPair a v s = { s with
      img := s.img.write a v
      intMark := s.intMark || (decide (a = Config.addrIntensity) && decide (15 < v.toNat)) } := by
  unfold latchPair
  split <;> simp_all [markIntensity, latchRegister]

theorem stepT1_next (h : stepT1 s = .next t) :
    (s.bus.sel = true ∧ t = s) ∨ (s.bus.sel = false ∧ t = setMs .t2 s) := by
  unfold stepT1 hold at h
  split at h
  · exact .inl ⟨by assumption, by simpa using h.symm⟩
  · exact .inr ⟨by simp_all, by simpa using h.symm⟩

theorem stepT4_next (h : stepT4 s = .next t) :
    (txNf s = false ∧ t = s) ∨
    ∃ b, txNf s = true ∧ frameByte s s.block.bi = some b ∧
      t = setMs (if s.block.bi + 1 ≤ Config.size then .t4 else .t5a)
        { s with bus.txq := s.bus.txq ++ [b], block.bi := s.block.bi + 1 } := by
  unfold stepT4 hold at h
  split at h
  · split at h
    · cases h
    · exact .inr ⟨_, by assumption, by assumption, by simpa using h.symm⟩
  · exact .inl ⟨by simp_all, by simpa using h.symm⟩

theorem stepT5A_next (h : stepT5A s = .next t) :
    (s.bus.txq ≠ [] ∧ t = s) ∨ (s.bus.txq = [] ∧ t = setMs .t5b s) := by
  unfold stepT5A hold txCnt at h
  split at h
  · exact .inr ⟨List.length_eq_zero_iff.1 ‹_›, by simpa using h.symm⟩
  · exact .inl ⟨fun he => ‹¬ _› (by simp [he]), by simpa using h.symm⟩

theorem stepT5B_next (h : stepT5B s = .next t) :
    (s.bus.shift ≠ none ∧ t = s) ∨ (s.bus.shift = none ∧ t = setMs .t6 s) := by
  unfold stepT5B hold sBusy at h
  split at h
  · exact .inl ⟨by rw [← Option.isSome_iff_ne_none]; assumption, by simpa using h.symm⟩
  · exact .inr ⟨by simp_all, by simpa using h.symm⟩

theorem stepT7W_next (h : stepT7W s = .next t) :
    (s.bus.rfl = true ∧ t = s) ∨ (s.bus.rfl = false ∧ t = setMs .t8 s) := by
  unfold stepT7W hold at h
  split at h
  · exact .inl ⟨by assumption, by simpa using h.symm⟩
  · exact .inr ⟨by simp_all, by simpa using h.symm⟩

theorem stepWO_next (h : stepWO s = .next t) :
    (s.timer.ovf = false ∧ t = s) ∨
    (s.timer.ovf = true ∧ s.block.dn ≠ 0 ∧
      t = emit (.tick s.block.u)
        (setMs (if s.block.dn - 1 = 0 then .wx else .wl)
          { s with block.dn := s.block.dn - 1 })) := by
  unfold stepWO hold at h
  split at h
  · split at h
    · cases h
    · exact .inr ⟨by assumption, by assumption, by simpa using h.symm⟩
  · exact .inl ⟨by simp_all, by simpa using h.symm⟩

theorem stepFetch_next (h : stepFetch s = .next t) :
    ∃ l, currentItems s = some l ∧
      ((s.block.fi = l.length ∧ t = finishCommand s) ∨
        ∃ it, l[s.block.fi]? = some it ∧ t = loadItem it s) := by
  unfold stepFetch at h
  split at h
  · cases h
  · next l hl =>
    refine ⟨l, hl, ?_⟩
    split at h
    · exact .inl ⟨by assumption, by simpa using h.symm⟩
    · split at h
      · exact .inr ⟨_, by assumption, by simpa using h.symm⟩
      · cases h

/-- PE1 moves the oldest byte of the FIFO, or does nothing. -/
theorem stepPE1_cases (s : State) :
    (∃ b rest, s.bus.shift = none ∧ s.bus.txq = b :: rest ∧
      stepPE1 s = { s with bus.shift := some b, bus.txq := rest }) ∨ stepPE1 s = s := by
  unfold stepPE1
  split
  · exact .inl ⟨_, _, by assumption, by assumption, rfl⟩
  · exact .inr rfl

/-- PE2 puts the byte in the shift register on the wire, or does nothing. -/
theorem stepPE2_cases (s : State) :
    (∃ b, s.bus.shift = some b ∧
      stepPE2 s = emit (.byte b) { s with
        bus.shift := none
        bus.tc := true
        bus.rxq := s.bus.rxq ++ [Config.freeByte s.rxDraws]
        rxDraws := s.rxDraws + 1 }) ∨ (s.bus.shift = none ∧ stepPE2 s = s) := by
  unfold stepPE2
  split
  · exact .inl ⟨_, by assumption, rfl⟩
  · exact .inr ⟨by assumption, rfl⟩

/-- PE3 ends a flush, or does nothing. -/
theorem stepPE3_cases (s : State) :
    (s.bus.rfl = true ∧ stepPE3 s = { s with bus.rxq := [], bus.rfl := false }) ∨
      (s.bus.rfl = false ∧ stepPE3 s = s) := by
  unfold stepPE3
  split
  · exact .inl ⟨by assumption, rfl⟩
  · exact .inr ⟨by simp_all, rfl⟩

/-- TE1 raises the overflow flag, or does nothing. -/
theorem stepTE1_cases (s : State) :
    (s.timer.run = true ∧ s.timer.ovf = false ∧ stepTE1 s = { s with timer.ovf := true }) ∨
      stepTE1 s = s := by
  unfold stepTE1
  split
  · next h => exact .inl ⟨by simp_all, by simp_all, rfl⟩
  · exact .inr rfl

/-- The host offers its next word, or does nothing. -/
theorem stepHost_cases (s : State) :
    (∃ w rest, s.port.valid = false ∧ s.program = w :: rest ∧
      stepHost s = { s with port.valid := true, port.word := w, program := rest }) ∨
      stepHost s = s := by
  unfold stepHost
  split
  · exact .inl ⟨_, _, by assumption, by assumption, rfl⟩
  · exact .inr rfl

/-- Everything a step that goes on can be: a command taken, a frame latched, an idle or a running turn
of the block, a turn of the environment. -/
theorem step_next_cases (h : step s = .next t) :
    (∃ i, nextMove s = .block ∧ s.block.phase = .idle ∧ s.port.valid = true ∧
      decodeCmd s.port.word = .command i ∧ exec i (withdrawOffer (takeMove s)) = .next t) ∨
    (∃ bs i, nextMove s = .block ∧ s.block.phase = .run ∧ s.block.ms = .t8 ∧
      openWindow s.trace = some bs ∧ decodeWindow bs = .frame i ∧
      exec i (deselect (takeMove s)) = .next t) ∨
    (nextMove s = .block ∧ s.block.phase = .idle ∧ s.port.valid = false ∧ t = takeMove s) ∨
    (nextMove s = .block ∧ s.block.phase = .run ∧ microStep (takeMove s) = .next t) ∨
    (nextMove s = .host ∧ t = stepHost (takeMove s)) ∨
    (nextMove s = .pe1 ∧ t = stepPE1 (takeMove s)) ∨
    (nextMove s = .pe2 ∧ t = stepPE2 (takeMove s)) ∨
    (nextMove s = .pe3 ∧ t = stepPE3 (takeMove s)) ∨
    (nextMove s = .te1 ∧ t = stepTE1 (takeMove s)) := by
  unfold step fetch at h
  cases hm : nextMove s with
  | block =>
    simp only [hm] at h
    cases hp : s.block.phase with
    | idle =>
      simp only [hp] at h
      cases hv : s.port.valid with
      | false =>
        simp only [hv, runMove, stepBlock, takeMove_block, hp, hold] at h
        simp_all
      | true =>
        simp only [hv, fetchCommand] at h
        split at h
        · next i hi =>
          refine .inl ⟨i, rfl, rfl, rfl, ?_, h⟩
          simp at hi
          split at hi <;> simp_all
        all_goals simp only [if_true] at *; split at * <;> simp_all
    | run =>
      simp only [hp] at h
      by_cases h8 : s.block.ms = .t8
      · simp only [h8, if_true] at h
        cases hw : openWindow s.trace with
        | none =>
          simp only [hw, fetchFrame, runMove, stepBlock, takeMove_block, hp] at h
          simp_all
        | some bs =>
          simp only [hw, fetchFrame] at h
          cases hd : decodeWindow bs with
          | frame i => simp only [hd] at h; exact .inr (.inl ⟨bs, i, rfl, rfl, h8, rfl, hd, h⟩)
          | unmapped a =>
            simp only [hd, runMove, stepBlock, takeMove_block, hp] at h; simp_all
          | badLength n =>
            simp only [hd, runMove, stepBlock, takeMove_block, hp] at h; simp_all
      · simp only [if_neg h8, runMove, stepBlock, takeMove_block, hp] at h
        simp_all
  | host => simp_all [runMove]
  | pe1 => simp_all [runMove]
  | pe2 => simp_all [runMove]
  | pe3 => simp_all [runMove]
  | te1 => simp_all [runMove]

end Sys2Proof.Machine
end

