-- ==== Sys2Proof/Tests/Slice0.lean ====
section
/-! SUPPORT. Small tests against the words and tables of spec/95_test_vectors.md and spec/30_encoding.md,
and for every statement with hypotheses a witness that meets them. -/

namespace Sys2Proof.Tests

open Sys2Proof.Machine

/-! ### Ill-formed terms -/

theorem test_digit_ten_is_ill_formed : (Instr.setDigit 10 8).wellFormed = false := by decide
theorem test_digit_position_zero_is_ill_formed : (Instr.setDigit 9 0).wellFormed = false := by decide
theorem test_digit_position_nine_is_ill_formed : (Instr.setDigit 9 9).wellFormed = false := by decide
theorem test_glyph_position_zero_is_ill_formed : (Instr.setGlyph 0 0).wellFormed = false := by decide
theorem test_glyph_position_nine_is_ill_formed : (Instr.setGlyph 0xFF 9).wellFormed = false := by decide
theorem test_largest_digit_is_well_formed : (Instr.setDigit 9 8).wellFormed = true := by decide
theorem test_any_level_is_well_formed : (Instr.setInt 255).wellFormed = true := by decide

/-! ### Decoding: one word per constructor, from V1 to V16f and the rows of R110 and R102 -/

theorem test_decode_plain_commands :
    decodeCmd 0b000000010000000000000000 = .command .initDisp ∧
    decodeCmd 0b000000100000000000000000 = .command .clrDisp ∧
    decodeCmd 0b000000110000000000000000 = .command .setScan ∧
    decodeCmd 0b000001000000000000000000 = .command .setDecode ∧
    decodeCmd 0b000010100000000000000000 = .command .selfTest := by decide

theorem test_decode_mode_commands :
    decodeCmd 0b000001010000000000000000 = .command (.setShdn .shutdown) ∧
    decodeCmd 0b000001010000000000000001 = .command (.setShdn .normal) ∧
    decodeCmd 0b000001100000000000000000 = .command (.setTest .normal) ∧
    decodeCmd 0b000001100000000000000001 = .command (.setTest .test) := by decide

theorem test_decode_operand_commands :
    decodeCmd 0b000001110000000011111111 = .command (.setInt 255) ∧
    decodeCmd 0b000010000000100100001000 = .command (.setDigit 9 8) ∧
    decodeCmd 0b000010010100111100000011 = .command (.setGlyph 0x4F 3) ∧
    decodeCmd 0b000010111111111111111111 = .command (.waitUs 65535) ∧
    decodeCmd 0b000011000000000111110100 = .command (.waitMs 500) := by decide

theorem test_decode_out_of_contract :
    decodeCmd 0x080A08 = .outOfContract (.setDigit 10 8) ∧
    decodeCmd 0x080900 = .outOfContract (.setDigit 9 0) ∧
    decodeCmd 0x09FF09 = .outOfContract (.setGlyph 0xFF 9) := by decide

theorem test_decode_reserved :
    decodeCmd 0x000000 = .reserved ∧ decodeCmd 0x0D0000 = .reserved ∧
    decodeCmd 0xFFFFFF = .reserved ∧ decodeCmd 0x010001 = .reserved ∧
    decodeCmd 0x050002 = .reserved ∧ decodeCmd 0x070100 = .reserved ∧
    decodeCmd 0x0600FF = .reserved := by decide

/-- R102: the second byte on the wire is the address. -/
theorem test_decode_digit_frames :
    decodeFrame 0x5500AB = .frame (.fNoop 0x55 0xAB) ∧
    decodeFrame 0x550133 = .frame (.fDigit1 0x55 0x33) ∧
    decodeFrame 0x55026D = .frame (.fDigit2 0x55 0x6D) ∧
    decodeFrame 0x550379 = .frame (.fDigit3 0x55 0x79) ∧
    decodeFrame 0x550433 = .frame (.fDigit4 0x55 0x33) ∧
    decodeFrame 0x55055B = .frame (.fDigit5 0x55 0x5B) ∧
    decodeFrame 0x55065F = .frame (.fDigit6 0x55 0x5F) ∧
    decodeFrame 0x550770 = .frame (.fDigit7 0x55 0x70) ∧
    decodeFrame 0x55087B = .frame (.fDigit8 0x55 0x7B) := by decide

theorem test_decode_control_frames :
    decodeFrame 0xAA0900 = .frame (.fDecode 0xAA 0) ∧
    decodeFrame 0xAA0A08 = .frame (.fIntensity 0xAA 8) ∧
    decodeFrame 0xAA0B07 = .frame (.fScanLimit 0xAA 7) ∧
    decodeFrame 0xAA0C01 = .frame (.fShutdown 0xAA 1) ∧
    decodeFrame 0xAA0F00 = .frame (.fDispTest 0xAA 0) ∧
    decodeFrame 0xAA0D00 = .unmapped 0x0D ∧
    decodeWindow [0x0B, 0x07] = .badLength 2 := by decide

/-- V13, V38 and R100: the encoder, against words written out. -/
theorem test_encode :
    encode (.setDigit 9 8) = 0x080908 ∧ encode (.setGlyph 0x4F 3) = 0x094F03 ∧
    encode (.setShdn .normal) = 0x050001 ∧ encode (.setTest .test) = 0x060001 ∧
    encode (.waitMs 500) = 0x0C01F4 ∧ encode (.fScanLimit 0xAA 7) = 0xAA0B07 := by decide

/-! ### The words of the opcode table, and the first step after reset on them -/

/-- A field of the next state. -/
def after {α : Type} (r : Result) (f : State → α) : Option α :=
  match r with
  | .next t => some (f t)
  | .fault _ => none
  | .refused _ => none

/-- The refusal an outcome names. -/
def refusal (r : Result) : Option Refusal :=
  match r with
  | .next _ => none
  | .fault _ => none
  | .refused x => some x

/-- The state after reset with a word placed where it is fetched. -/
def placed (w : Nat) : State := State.reset.withFetchWord 24 w

theorem test_table_word_commands :
    decodeTableWord 24 0x010000 = some .initDisp ∧ decodeTableWord 24 0x080000 = some (.setDigit 0 0) ∧
    decodeTableWord 24 0x0B0000 = some (.waitUs 0) := by decide

theorem test_table_word_frames :
    decodeTableWord 24 0x000000 = some (.fNoop 0 0) ∧ decodeTableWord 24 0x000100 = some (.fDigit1 0 0) ∧
    decodeTableWord 24 0x000F00 = some (.fDispTest 0 0) ∧ decodeTableWord 24 0x000D00 = none := by
  decide

/-- Row 1 of V23: `ACCEPT`. -/
theorem test_accept_setScan :
    after (step (placed 0x030000)) (fun t => (t.block.phase, t.block.ms, t.block.op, t.block.fi, t.trace))
      = some (.run, .fetch, 0x03, 0, [.cmdAccept 0x030000]) := by decide

/-- The step is exec of the decoded instruction. -/
theorem test_step_is_exec : step (placed 0x0C01F4) = exec (.waitMs 500)
    { State.reset with port := { valid := false, word := 0x0C01F4 } } := rfl

/-- V41, V41d, P5: refused, no `CMD_ACCEPT`. -/
theorem test_refused_operands :
    refusal (step (placed 0x080A08)) = some (.outOfContract "SETDIGIT") ∧
    refusal (step (placed 0x090000)) = some (.outOfContract "SETGLYPH") := by decide

/-- V6, offered at the port: refused. -/
theorem test_refused_word :
    refusal (step (offerWord 0x000000 State.reset)) = some (.reservedWord 0x000000) := by decide

/-! ### Item lists: V27 to V47 -/

theorem test_items_setInt :
    itemsOfWord 0x070010 = some [.frame 0x0A 0x10] ∧ itemsOfWord 0x0700FF = some [.frame 0x0A 0xFF] := by
  decide

theorem test_mark_setInt :
    after (step (placed 0x070010)) (·.intMark) = some true ∧
    after (step (placed 0x07000F)) (·.intMark) = some false := by decide

theorem test_items_modes :
    itemsOfWord 0x050001 = some [.frame 0x0C 0x01] ∧ itemsOfWord 0x050000 = some [.frame 0x0C 0x00] ∧
    itemsOfWord 0x060001 = some [.frame 0x0F 0x01] ∧ itemsOfWord 0x060000 = some [.frame 0x0F 0x00] := by
  decide

theorem test_items_fixed_values :
    itemsOfWord 0x040000 = some [.frame 0x09 0x00] ∧ itemsOfWord 0x030000 = some [.frame 0x0B 0x07] := by
  decide

/-- V35a, V36.7, V37: the position comes first in the frame. -/
theorem test_items_setDigit :
    itemsOfWord 0x080105 = some [.frame 5 0x30] ∧ itemsOfWord 0x080705 = some [.frame 5 0x70] ∧
    itemsOfWord 0x080908 = some [.frame 8 0x7B] := by decide

/-- V38, V40a. -/
theorem test_items_setGlyph :
    itemsOfWord 0x094F03 = some [.frame 3 0x4F] ∧ itemsOfWord 0x098004 = some [.frame 4 0x80] := by decide

/-- V43, the first four and the last. -/
theorem test_items_initDisp :
    (itemsOfWord 0x010000).map (fun l => (l.length, l.take 4, l.getLast?)) =
      some (13, [.frame 0x0B 0x07, .frame 0x09 0x00, .frame 0x0C 0x01, .frame 0x0F 0x00],
        some (.frame 0x0A 0x01)) := by decide

/-- V45, P4: 35 items, and no write of position 8 in the third group. -/
theorem test_items_selfTest :
    (itemsOfWord 0x0A0000).map (fun l => (l.length, l[7]?, l[8]?, l[19]?, l[25]?)) =
      some (35, some (.frame 8 0x70), some (.wait .ms 500), some (.frame 2 0x7B),
        some (.wait .ms 500)) := rfl

/-- V21c: `A` is the high byte of the count. -/
theorem test_items_waits :
    itemsOfWord 0x0C0100 = some [.wait .ms 256] ∧ itemsOfWord 0x0BFFFF = some [.wait .us 65535] := by
  decide

/-! ### One step of a running command: the rows of V19 and V23 -/

/-- A running command at a micro-step, the block's turn next. -/
def at' (m : MicroStep) (w : Word24) : State :=
  { State.reset with
    block := { Block.reset with
      op := fieldHi w, a := fieldMid w, b := fieldLo w, ms := m, phase := .run }
    sched := [.block] }

/-- The same, inside a chip-select window. -/
def selected (m : MicroStep) (w : Word24) : State :=
  { at' m w with bus := { Bus.reset with sel := true } }

/-- Another agent's turn on a state. -/
def turn (m : Move) (s : State) : State := { s with sched := [m] }

/-- V23 row 2, V19 row 2, V17: FETCH. -/
theorem test_fetch :
    after (step (at' .fetch 0x030000)) (fun t => (t.block.pay0, t.block.pay1, t.block.ms))
      = some (0x0B, 0x07, .t1) ∧
    after (step (at' .fetch 0x0C0002)) (fun t => (t.block.u, t.block.dn, t.block.ms))
      = some (.ms, 2, .wl) ∧
    after (step (at' .fetch 0x0C0000)) (fun t => (t.block.dn, t.block.ms)) = some (0, .wx) := by decide

/-- V23 row 23: the end of the list. -/
theorem test_fetch_end :
    after (step { at' .fetch 0x030000 with block.fi := 1 }) (fun t => (t.block.phase, t.trace))
      = some (.idle, [.cmdDone]) := by decide

/-- V25: `SEL = 1` holds T1; V23 row 3: `SEL = 0` passes. -/
theorem test_t1 :
    after (step (selected .t1 0x030000)) (·.block.ms) = some .t1 ∧
    after (step (at' .t1 0x030000)) (·.block.ms) = some .t2 := by decide

/-- V23 rows 4, 5. -/
theorem test_t2_t3 :
    after (step (at' .t2 0x030000)) (fun t => (t.bus.irqEn, t.block.ms, t.trace))
      = some (false, .t3, [.irqOff]) ∧
    after (step (at' .t3 0x030000)) (fun t => (t.bus.sel, t.block.bi, t.block.ms, t.trace))
      = some (true, 0, .t4, [.selLow]) := by decide

/-- V23 row 11: the third byte goes to T5A. -/
theorem test_t4 :
    after (step { selected .t4 0x030000 with block.bi := 2, block.pay1 := 0x07 })
      (fun t => (t.bus.txq, t.block.bi, t.block.ms)) = some ([0x07], 3, .t5a) := rfl

/-- V23 rows 14, 16: held while the FIFO or the shifter holds a byte. -/
theorem test_t5 :
    after (step { selected .t5a 0x030000 with bus.txq := [0x07] }) (·.block.ms) = some .t5a ∧
    after (step (selected .t5a 0x030000)) (·.block.ms) = some .t5b ∧
    after (step { selected .t5b 0x030000 with bus.shift := some 0x07 }) (·.block.ms) = some .t5b ∧
    after (step (selected .t5b 0x030000)) (·.block.ms) = some .t6 := by decide

/-- V23 rows 17 to 20. -/
theorem test_t6_t7 :
    after (step { selected .t6 0x030000 with bus.tc := true }) (fun t => (t.bus.tc, t.trace))
      = some (false, [.tcClr]) ∧
    after (step (selected .t7t 0x030000)) (fun t => (t.bus.rfl, t.block.ms, t.trace))
      = some (true, .t7w, [.rxFlush]) ∧
    after (step { selected .t7w 0x030000 with bus.rfl := true }) (·.block.ms) = some .t7w ∧
    after (step (selected .t7w 0x030000)) (·.block.ms) = some .t8 := by decide

/-- V23 row 21: the slave has the pair of the window (R67, R86). -/
theorem test_t8 :
    after (step { selected .t8 0x030000 with trace := [.selLow, .byte 0x55, .byte 0x0B, .byte 0x07] })
      (fun t => (t.bus.sel, t.block.ms, t.img)) = some (false, .t9, [(0x0B, 0x07)]) := by decide

/-- V23 row 22, V26a: the enable is set, not restored. -/
theorem test_t9 :
    after (step (at' .t9 0x030000)) (fun t => (t.bus.irqEn, t.block.fi, t.block.ms, t.trace))
      = some (true, 1, .fetch, [.irqOn]) := by decide

/-- V19 rows 4, 5. -/
theorem test_wait_start :
    after (step { at' .wc 0x0C0002 with timer.ovf := true }) (fun t => (t.timer.ovf, t.block.ms))
      = some (false, .ws) ∧
    after (step (at' .ws 0x0C0002)) (fun t => (t.timer.run, t.block.ms)) = some (true, .wo) := by decide

/-- V19 rows 7, 12, V22. -/
theorem test_wait_overflow :
    after (step { at' .wo 0x0C0002 with timer.ovf := true, block.dn := 2, block.u := .ms })
      (fun t => (t.block.dn, t.block.ms, t.trace)) = some (1, .wl, [.tick .ms]) ∧
    after (step { at' .wo 0x0C0002 with timer.ovf := true, block.dn := 1, block.u := .ms })
      (fun t => (t.block.dn, t.block.ms, t.trace)) = some (0, .wx, [.tick .ms]) ∧
    after (step { at' .wo 0x0C0001 with block.dn := 1 }) (fun t => (t.block.dn, t.block.ms, t.trace))
      = some (1, .wo, []) := by decide

/-- V19 row 13. -/
theorem test_wait_stop :
    after (step { at' .wx 0x0C0002 with timer.run := true, block.u := .ms })
      (fun t => (t.timer.run, t.block.fi, t.block.ms, t.trace))
      = some (false, 1, .fetch, [.tmrStop .ms]) := by decide

/-- V23 rows 7, 9, 19; V19 row 6. -/
theorem test_environment :
    after (step (turn .pe1 { State.reset with bus.txq := [0x0B, 0x07] }))
      (fun t => (t.bus.txq, t.bus.shift)) = some ([0x07], some 0x0B) ∧
    after (step (turn .pe2 { State.reset with bus.shift := some 0x0B }))
      (fun t => (t.bus.shift, t.bus.tc, t.trace, t.bus.rxq.length))
      = some (none, true, [.byte 0x0B], 1) ∧
    after (step (turn .pe3 { State.reset with bus.rfl := true, bus.rxq := [1, 2] }))
      (fun t => (t.bus.rxq, t.bus.rfl)) = some ([], false) ∧
    after (step (turn .te1 { State.reset with timer.run := true })) (·.timer.ovf) = some true := by decide

/-- V48: a word offered while a command runs is not taken. -/
theorem test_busy :
    after (step { at' .t2 0x020000 with port := { valid := true, word := 0x030000 } })
      (fun t => (t.block.op, t.port.valid)) = some (0x02, true) := by decide

/-! ### What the slave keeps, and what a trace shows -/

/-- R71 to R77: one latch per frame kind, addresses as R102 numbers them. -/
theorem test_frames_digits :
    after (exec (.fNoop 0xAA 1) State.reset) (·.img) = some [(0, 1)] ∧
    after (exec (.fDigit1 0xAA 2) State.reset) (·.img) = some [(1, 2)] ∧
    after (exec (.fDigit2 0xAA 3) State.reset) (·.img) = some [(2, 3)] ∧
    after (exec (.fDigit3 0xAA 4) State.reset) (·.img) = some [(3, 4)] ∧
    after (exec (.fDigit4 0xAA 5) State.reset) (·.img) = some [(4, 5)] ∧
    after (exec (.fDigit5 0xAA 6) State.reset) (·.img) = some [(5, 6)] ∧
    after (exec (.fDigit6 0xAA 7) State.reset) (·.img) = some [(6, 7)] ∧
    after (exec (.fDigit7 0xAA 8) State.reset) (·.img) = some [(7, 8)] ∧
    after (exec (.fDigit8 0xAA 9) State.reset) (·.img) = some [(8, 9)] := by decide

theorem test_frames_control :
    after (exec (.fDecode 0xAA 1) State.reset) (·.img) = some [(0x09, 1)] ∧
    after (exec (.fIntensity 0xAA 16) State.reset) (fun t => (t.img, t.intMark))
      = some ([(0x0A, 16)], true) ∧
    after (exec (.fScanLimit 0xAA 7) State.reset) (·.img) = some [(0x0B, 7)] ∧
    after (exec (.fShutdown 0xAA 1) State.reset) (·.img) = some [(0x0C, 1)] ∧
    after (exec (.fDispTest 0xAA 1) State.reset) (·.img) = some [(0x0F, 1)] := by decide

/-- A frame word of the opcode table runs as the first instruction after reset. -/
theorem test_step_frame :
    after (step (placed 0x550133)) (fun t => (t.img, t.bus.sel, t.block.ms))
      = some ([(1, 0x33)], false, .t9) := by decide

/-- The register space stays in canonical form whichever way two registers are written. -/
theorem test_image_order :
    Memory.write (Memory.write [] 0x0B 7) 0x01 0x33 = Memory.write (Memory.write [] 0x01 0x33) 0x0B 7 := by
  decide

/-- The trace of V23. -/
def scanTrace : List Event :=
  [.cmdAccept 0x030000, .irqOff, .selLow, .byte 0x55, .byte 0x0B, .byte 0x07, .tcClr, .rxFlush,
   .selHigh, .irqOn, .cmdDone]

/-- V23: the windows, the view and the image of the trace. -/
theorem test_trace_functions :
    windows scanTrace = [[0x55, 0x0B, 0x07]] ∧ view scanTrace = [.frame [0x55, 0x0B, 0x07]] ∧
    strayBytes scanTrace = 0 ∧ imageOf scanTrace = [(0x0B, 0x07)] := by decide

/-- V19: the view of a wait. -/
theorem test_view_wait :
    view [.cmdAccept 0x0C0002, .tick .ms, .tick .ms, .tmrStop .ms, .cmdDone] = [.wait .ms 2] := by decide

/-- E12: the order of the bits on the wire. -/
theorem test_wire_bits :
    wireBits [0x0B, 0x07] = [false, false, false, false, true, false, true, true,
      false, false, false, false, false, true, true, true] := by decide

/-- V46. -/
theorem test_step_counts :
    stepsLeft (at' .fetch 0x020000) = 113 ∧ stepsLeft (at' .fetch 0x030000) = 15 ∧
    stepsLeft (at' .fetch 0x0C01F4) = 2003 := by decide

/-! ### Witnesses: for each statement with hypotheses, a state and operands that meet them, clause by
clause at the boundary values -/

theorem witness_StepRunsTheOfferedCommand :
    (nextMove (placed 0x0C01F4) = .block ∧ (placed 0x0C01F4).block.phase = .idle ∧
      (placed 0x0C01F4).port.valid = true ∧
      decodeCmd (placed 0x0C01F4).port.word = .command (.waitMs 500)) ∧
    (nextMove (offerWord 0 State.reset) = .block ∧ (offerWord 0 State.reset).block.phase = .idle ∧
      (offerWord 0 State.reset).port.valid = true ∧
      decodeCmd (offerWord 0 State.reset).port.word = .reserved) ∧
    decodeCmd (placed 0x080A08).port.word = .outOfContract (.setDigit 10 8) := by decide

theorem witness_StepRunsTheFrameOnTheWire :
    BlockAt .t8 (placed 0x550133) ∧ openWindow (placed 0x550133).trace = some [0x55, 0x01, 0x33] ∧
    decodeFrame (mkWord 0x55 0x01 0x33) = .frame (.fDigit1 0x55 0x33) := by
  unfold BlockAt; decide

theorem witness_DecodeOfEncodedCommand :
    (Instr.setDigit 9 8).format = .cmd24 ∧ (Instr.setDigit 9 8).wellFormed = true ∧
    (Instr.setDigit 10 8).format = .cmd24 ∧ (Instr.setDigit 10 8).wellFormed = false := by decide

theorem witness_DecodeOfEncodedFrame : (Instr.fDispTest 0xFF 0xFF).format = .frame24 := by decide

theorem witness_EncodeOfDecodedWord :
    decodeCmd 0x0BFFFF = .command (.waitUs 65535) ∧
    decodeCmd 0x080A08 = .outOfContract (.setDigit 10 8) ∧
    decodeFrame 0xFF0FFF = .frame (.fDispTest 0xFF 0xFF) ∧ decodeFrame 0x001000 = .unmapped 0x10 ∧
    (Instr.fDispTest 0 0).format = .frame24 := by decide

theorem witness_DecodeFollowsTheRowMasks :
    decodeCmd 0x050002 = .reserved ∧ decodeCmd 0x050001 = .command (.setShdn .normal) ∧
    decodeCmd 0x09FF09 = .outOfContract (.setGlyph 0xFF 9) := by decide

theorem witness_EncodingRowsAreDisjoint :
    (Instr.setInt 1).format = (Instr.setInt 2).format ∧
    (0x0700FF : Word24) &&& (tableRow (.setInt 1)).1 = (tableRow (.setInt 1)).2 ∧
    (0x0700FF : Word24) &&& (tableRow (.setInt 2)).1 = (tableRow (.setInt 2)).2 := by decide

theorem witness_SetScanWritesTheScanLimit : State.reset.block.phase = .idle := rfl
theorem witness_SetDecodeWritesNoDecode : State.reset.block.phase = .idle := rfl
theorem witness_SetShdnWritesItsMode : State.reset.block.phase = .idle := rfl
theorem witness_SetTestWritesItsMode : State.reset.block.phase = .idle := rfl
theorem witness_SetIntPassesItsLevelThrough : State.reset.block.phase = .idle := rfl

theorem witness_SetDigitWritesItsGlyph :
    State.reset.block.phase = .idle ∧
    (((9 : Byte).toNat ≤ 9 ∧ 1 ≤ (8 : Byte).toNat ∧ (8 : Byte).toNat ≤ 8) ∧
      ((0 : Byte).toNat ≤ 9 ∧ 1 ≤ (1 : Byte).toNat ∧ (1 : Byte).toNat ≤ 8)) := by decide

theorem witness_SetGlyphWritesItsPattern :
    State.reset.block.phase = .idle ∧ (1 ≤ (8 : Byte).toNat ∧ (8 : Byte).toNat ≤ 8) ∧
    (1 ≤ (1 : Byte).toNat ∧ (1 : Byte).toNat ≤ 8) := by decide

theorem witness_InitDispExpandsInOrder : State.reset.block.phase = .idle := rfl
theorem witness_ClrDispExpandsInOrder : State.reset.block.phase = .idle := rfl
theorem witness_SelfTestExpandsInOrder : State.reset.block.phase = .idle := rfl
theorem witness_WaitsExpandToOneDelay : State.reset.block.phase = .idle := rfl

theorem witness_BusyBlockTakesNoCommand :
    (at' .t2 0x020000).block.phase = .run ∧ (Instr.setDigit 10 8).format = .cmd24 := by decide

theorem witness_OutOfContractOperandsAreRefused :
    State.reset.block.phase = .idle ∧ 9 < (10 : Byte).toNat ∧ (0 : Byte).toNat = 0 ∧
    8 < (9 : Byte).toNat ∧ (Instr.setDigit 9 8).wellFormed = true := by decide

theorem witness_CommandsChangeOnlyTheLatch :
    (Instr.setInt 16).format = .cmd24 ∧
    (∃ t, exec (.setInt 16) State.reset = .next t) ∧
    (∀ level, Instr.clrDisp ≠ .setInt level) ∧ (∃ t, exec .clrDisp State.reset = .next t) :=
  ⟨rfl, ⟨_, rfl⟩, fun _ => Instr.noConfusion, ⟨_, rfl⟩⟩

theorem witness_FrameMeaningAgreesWithImageRule :
    decodeFrame (mkWord 0xFF 0x0A 0x10) = .frame (.fIntensity 0xFF 0x10) := by decide

theorem witness_T1WaitsForTheBus : BlockAt .t1 (selected .t1 0x030000) := by unfold BlockAt; decide
theorem witness_T2DisablesTheInterrupt : BlockAt .t2 (at' .t2 0x030000) := by unfold BlockAt; decide
theorem witness_T3SelectsTheSlave : BlockAt .t3 (at' .t3 0x030000) := by unfold BlockAt; decide

/-- T4 with the opcode byte to send. -/
theorem witness_T4EnqueuesTheFrame_opcode :
    BlockAt .t4 (selected .t4 0x030000) ∧ (selected .t4 0x030000).block.bi = 0 := by
  unfold BlockAt; decide

/-- T4 with the address to send. -/
theorem witness_T4EnqueuesTheFrame_address :
    BlockAt .t4 { selected .t4 0x030000 with block.bi := 1, block.pay0 := 0x0B } := by
  unfold BlockAt; decide

/-- T4 with the value to send. -/
theorem witness_T4EnqueuesTheFrame_value :
    BlockAt .t4 { selected .t4 0x030000 with block.bi := 2, block.pay1 := 0x07 } := by
  unfold BlockAt; decide

theorem witness_T5WaitsForTheLastBit :
    BlockAt .t5a { selected .t5a 0x030000 with bus.txq := [0x07] } ∧
    BlockAt .t5b { selected .t5b 0x030000 with bus.shift := some 0x07 } := by unfold BlockAt; decide

theorem witness_T6ClearsTheCompletionFlag : BlockAt .t6 (selected .t6 0x030000) := by
  unfold BlockAt; decide

theorem witness_T7FlushesTheReceivePath :
    BlockAt .t7t (selected .t7t 0x030000) ∧ BlockAt .t7w (selected .t7w 0x030000) := by
  unfold BlockAt; decide

theorem witness_T8DeselectsAndTheSlaveLatches :
    BlockAt .t8 (selected .t8 0x030000) ∧
    (selected .t8 0x030000).img = imageOf (selected .t8 0x030000).trace := by unfold BlockAt; decide

theorem witness_T9ReleasesTheBus : BlockAt .t9 (at' .t9 0x030000) := by unfold BlockAt; decide

theorem witness_WaitIterationStartsTheCounter :
    BlockAt .wl (at' .wl 0x0C0002) ∧ BlockAt .wc (at' .wc 0x0C0002) ∧
    BlockAt .ws (at' .ws 0x0C0002) := by unfold BlockAt; decide

/-- `DN` at its least and its greatest. -/
theorem witness_WaitOverflowCountsAndStops :
    (BlockAt .wo { at' .wo 0x0CFFFF with block.dn := 1, timer.ovf := true } ∧
      1 ≤ (1 : Word16).toNat) ∧
    (BlockAt .wo { at' .wo 0x0CFFFF with block.dn := 65535 } ∧ 1 ≤ (65535 : Word16).toNat) ∧
    BlockAt .wx (at' .wx 0x0C0002) := by unfold BlockAt; decide

/-- The end of the list, a frame, a wait of none and a wait of many. -/
theorem witness_FetchLoadsTheItem :
    (BlockAt .fetch { at' .fetch 0x030000 with block.fi := 1 } ∧
      currentItems { at' .fetch 0x030000 with block.fi := 1 } = some [.frame 0x0B 0x07]) ∧
    (BlockAt .fetch (at' .fetch 0x030000) ∧
      currentItems (at' .fetch 0x030000) = some [.frame 0x0B 0x07]) ∧
    (BlockAt .fetch (at' .fetch 0x0C0000) ∧
      currentItems (at' .fetch 0x0C0000) = some [.wait .ms 0]) ∧
    (BlockAt .fetch (at' .fetch 0x0BFFFF) ∧
      currentItems (at' .fetch 0x0BFFFF) = some [.wait .us 65535]) := by unfold BlockAt; decide

theorem witness_BusPeripheralAndTimerSteps :
    nextMove (turn .pe1 State.reset) = .pe1 ∧
    (nextMove (turn .pe2 { State.reset with bus.shift := some 0x0B }) = .pe2 ∧
      (turn .pe2 { State.reset with bus.shift := some 0x0B }).bus.shift = some 0x0B) ∧
    (nextMove (turn .pe2 State.reset) = .pe2 ∧ (turn .pe2 State.reset).bus.shift = none) ∧
    nextMove (turn .pe3 State.reset) = .pe3 ∧ nextMove (turn .te1 State.reset) = .te1 := by decide

/-- A host with two words, an offer that waits, and one that is taken. -/
theorem witness_HostOffersOneWordAtATime :
    (nextMove (turn .host { State.reset with program := [0x020000, 0x030000] }) = .host ∧
      (turn .host { State.reset with program := [0x020000, 0x030000] }).port.valid = false) ∧
    (∃ t, step { at' .t2 0x020000 with port := { valid := true, word := 0x030000 } } = .next t) ∧
    (placed 0x030000).port.valid = true ∧ (∃ t, step (placed 0x030000) = .next t) :=
  ⟨by decide, ⟨_, rfl⟩, rfl, ⟨_, rfl⟩⟩

theorem witness_TurnsThatAreNotEnabledChangeNothing :
    moveEnabled (nextMove (at' .wo 0x0C0001)) (at' .wo 0x0C0001) = false ∧
    moveEnabled (nextMove (selected .t1 0x030000)) (selected .t1 0x030000) = false ∧
    moveEnabled (nextMove (turn .te1 State.reset)) (turn .te1 State.reset) = false := by decide

theorem witness_TraceIsOnlyAppendedTo :
    (∃ t, step (turn .pe2 { State.reset with bus.shift := some 0x0B }) = .next t ∧
      t.trace = [.byte 0x0B]) ∧
    (∃ t, step (at' .t2 0x030000) = .next t ∧ t.trace = [.irqOff]) :=
  ⟨⟨_, rfl, rfl⟩, ⟨_, rfl, rfl⟩⟩

/-- A turn of each agent, a transfer's micro-step and a wait's. -/
theorem witness_CellsHaveOneOwner :
    (∃ t, step (turn .te1 { State.reset with timer.run := true }) = .next t) ∧
    (∃ t, step (turn .host { State.reset with program := [0x020000] }) = .next t) ∧
    (∃ t, step (turn .pe3 { State.reset with bus.rfl := true }) = .next t) ∧
    (∃ t, step (at' .wx 0x0C0002) = .next t) ∧ (∃ t, step (at' .t9 0x030000) = .next t) :=
  ⟨⟨_, rfl⟩, ⟨_, rfl⟩, ⟨_, rfl⟩, ⟨_, rfl⟩, ⟨_, rfl⟩⟩

theorem witness_CommandsRunToTheirEnd :
    ∃ t, (at' .fetch 0x030000).block.phase = .run ∧
      step { at' .fetch 0x030000 with block.fi := 1 } = .next t ∧ t.block.phase = .idle :=
  ⟨_, rfl, rfl, rfl⟩

/-- Two different states that differ in cells without a meaning, in IDLE and in RUN. -/
theorem witness_MeaninglessCellsCannotBeObserved :
    (erase State.reset = erase { State.reset with block.pay0 := 0xFF } ∧
      State.reset ≠ { State.reset with block.pay0 := 0xFF }) ∧
    (erase (at' .t9 0x030000) = erase { at' .t9 0x030000 with block.bi := 7 } ∧
      at' .t9 0x030000 ≠ { at' .t9 0x030000 with block.bi := 7 }) := by decide

/-- SETSCAN just taken. -/
def taken : State := { latchCommand 0x030000 State.reset with sched := [.block] }

theorem taken_busInv : BusInv taken :=
  ⟨Nat.zero_le _, rfl, rfl, rfl⟩

theorem taken_positionInv : PositionInv taken :=
  fun _ => ⟨[.frame 0x0B 0x07], rfl, Nat.zero_le _⟩

theorem taken_timerInv : TimerInv taken := fun _ h => MicroStep.noConfusion h

theorem taken_traceInv : TraceInv taken :=
  ⟨[], fun _ h => absurd h List.not_mem_nil, [.frame 0x0B 0x07], [], rfl, rfl, rfl⟩

theorem taken_imageInv : ImageInv taken := ⟨rfl, rfl⟩

/-- Nothing is written. -/
theorem none_ne_some {v : Byte} {p : Prop} (h : (none : Option Byte) = some v) : p := by cases h

theorem taken_markInv : MarkInv taken := fun _ h => none_ne_some h

/-- It steps to the first micro-step of its frame. -/
theorem taken_step : ∃ t, step taken = .next t ∧ t.block.ms = .t1 := ⟨_, rfl, rfl⟩

theorem witness_StepKeepsTheBusDiscipline : BusInv taken ∧ ∃ t, step taken = .next t :=
  ⟨taken_busInv, _, rfl⟩

theorem witness_StepKeepsTheSequencePosition :
    PositionInv taken ∧ TimerInv taken ∧ ∃ t, step taken = .next t :=
  ⟨taken_positionInv, taken_timerInv, _, rfl⟩

theorem witness_StepKeepsTheTraceInProgramOrder :
    BusInv taken ∧ PositionInv taken ∧ TraceInv taken ∧ ∃ t, step taken = .next t :=
  ⟨taken_busInv, taken_positionInv, taken_traceInv, _, rfl⟩

theorem witness_StepKeepsTheImageOfTheTrace :
    ImageInv taken ∧ MarkInv taken ∧ ∃ t, step taken = .next t :=
  ⟨taken_imageInv, taken_markInv, _, rfl⟩

theorem witness_NoStepFaults : BusInv taken ∧ PositionInv taken := ⟨taken_busInv, taken_positionInv⟩

/-- A wait that holds for the overflow, the counter running. -/
theorem witness_RunningCommandIsNeverStuck :
    BusInv { at' .wo 0x0C0001 with block.dn := 1, timer.run := true } ∧
    TimerInv { at' .wo 0x0C0001 with block.dn := 1, timer.run := true } ∧
    blockEnabled { at' .wo 0x0C0001 with block.dn := 1, timer.run := true } = false :=
  ⟨⟨Nat.zero_le _, rfl, rfl, rfl⟩, fun _ _ => rfl, rfl⟩

theorem witness_BlockStepsCountDown :
    BusInv taken ∧ PositionInv taken ∧ taken.block.phase = .run ∧ nextMove taken = .block ∧
    blockEnabled taken = true ∧ nextMove (turn .pe3 taken) ≠ .block :=
  ⟨taken_busInv, taken_positionInv, rfl, rfl, rfl, fun h => Move.noConfusion h⟩

theorem witness_StepCountsOfTheCommands :
    State.reset.block.phase = .idle ∧ Instr.selfTest.format = .cmd24 ∧
    ∃ t, exec .selfTest State.reset = .next t := ⟨rfl, rfl, _, rfl⟩

/-- A list of words checked one by one. -/
theorem accepted_of_all {ws : List Word24} (h : ws.all (fun w => (itemsOfWord w).isSome) = true) :
    Accepted ws := List.all_eq_true.1 h

/-- Words of P1 and P2. -/
theorem witness_ViewIsTheItemsOfTheCommands : Accepted [0x080101, 0x0C0002, 0x070008] :=
  accepted_of_all rfl

theorem witness_ImageIsTheRegisterWritesInOrder : Accepted [0x080704, 0x020000] :=
  accepted_of_all rfl

/-- P3; positions 1 and 8, addresses 0, 9 and 255. -/
theorem witness_ClrDispIsIdempotent :
    Accepted [0x080704] ∧ (1 ≤ (1 : Byte).toNat ∧ (8 : Byte).toNat ≤ 8) ∧
    ((0 : Byte).toNat = 0 ∧ 8 < (9 : Byte).toNat ∧ 8 < (255 : Byte).toNat) :=
  ⟨accepted_of_all rfl, by decide⟩

theorem witness_InitDispMakesTheDisplayReady :
    Accepted [0x050000, 0x0700FF] ∧ (1 ≤ (1 : Byte).toNat ∧ (8 : Byte).toNat ≤ 8) :=
  ⟨accepted_of_all rfl, by decide⟩

/-- An idle state of the invariant with a word at its port. -/
theorem witness_EveryCommandRunsToCompletion :
    Inv (offerWord 0x030000 State.reset) ∧
    (offerWord 0x030000 State.reset).block.phase = .idle ∧ Instr.initDisp.format = .cmd24 ∧
    Instr.initDisp.wellFormed = true :=
  ⟨⟨⟨Nat.zero_le _, rfl, rfl, rfl⟩, fun h => absurd h List.not_mem_nil,
    fun h => Phase.noConfusion h, fun h => Phase.noConfusion h,
    ⟨[], fun _ h => absurd h List.not_mem_nil, rfl⟩, ⟨rfl, rfl⟩,
    fun _ h => none_ne_some h⟩, rfl, rfl, rfl⟩

/-- A transfer just completed, its bus released. -/
def released : State :=
  { at' .fetch 0x030000 with
    block.fi := 1, bus := { Bus.reset with irqEn := true }, trace := [.selHigh, .irqOn] }

/-- After a transfer, at T2 of the next, and at the T9 that ends the first. -/
theorem witness_StepKeepsTheBusReleased :
    (BusInv released ∧ ReleasedInv released ∧ .irqOn ∈ released.trace ∧
      ∃ t, step released = .next t ∧ t.block.phase = .idle) ∧
    (BusInv { released with block.ms := .t2 } ∧ ReleasedInv { released with block.ms := .t2 } ∧
      ∃ t, step { released with block.ms := .t2 } = .next t ∧ t.bus.irqEn = false) ∧
    (BusInv (at' .t9 0x030000) ∧ ReleasedInv (at' .t9 0x030000) ∧
      ∃ t, step (at' .t9 0x030000) = .next t ∧ .irqOn ∈ t.trace ∧ t.bus.irqEn = true) :=
  ⟨⟨⟨Nat.zero_le _, ⟨rfl, rfl, rfl⟩⟩, fun _ => ⟨⟨rfl, rfl, rfl⟩, rfl⟩, by decide, _, rfl, rfl⟩,
    ⟨⟨Nat.zero_le _, ⟨rfl, rfl, rfl⟩⟩, fun _ => ⟨⟨rfl, rfl, rfl⟩, rfl⟩, _, rfl, rfl⟩,
    ⟨Nat.zero_le _, ⟨rfl, rfl, rfl⟩, rfl, rfl, rfl, rfl⟩, fun h => absurd h List.not_mem_nil,
    _, rfl, by decide, rfl⟩

end Sys2Proof.Tests
end

section
/-! PROOFS. The block's turn at a micro-step of the transfer, and the statements about T2, T6, T7T and
T7W of spec/41_transfer.md. -/

namespace Sys2Proof.Machine

variable {s : State} {m : MicroStep}

theorem BlockAt.ms_eq (h : BlockAt m s) : s.block.ms = m := h.2.2

/-- The block's turn of a running command is the micro-step `MS` names; at T8 the frame on the wire may
be run instead. -/
theorem step_eq_microStep_of_blockAt (h : BlockAt m s) (hm : m ≠ .t8) :
    step s = microStep (takeMove s) := by
  obtain ⟨hmove, hphase, hms⟩ := h
  have hfetch : fetch s = .turn .block := by simp [fetch, hmove, hphase, hms, hm]
  simp [step, hfetch, runMove, stepBlock, hphase]

/-! ### Which micro-step the turn is (10_state.md R27) -/

theorem step_eq_stepT2 (h : BlockAt .t2 s) : step s = stepT2 (takeMove s) := by
  simp [step_eq_microStep_of_blockAt h, microStep, h.ms_eq]

theorem step_eq_stepT6 (h : BlockAt .t6 s) : step s = stepT6 (takeMove s) := by
  simp [step_eq_microStep_of_blockAt h, microStep, h.ms_eq]

theorem step_eq_stepT7T (h : BlockAt .t7t s) : step s = stepT7T (takeMove s) := by
  simp [step_eq_microStep_of_blockAt h, microStep, h.ms_eq]

theorem step_eq_stepT7W (h : BlockAt .t7w s) : step s = stepT7W (takeMove s) := by
  simp [step_eq_microStep_of_blockAt h, microStep, h.ms_eq]

/-! ### The effect in fields of the state before the turn -/

/-- The common shape of the control micro-steps: one bus write, one event, the next micro-step. Taking
the turn has changed the schedule only, so `MS` and the trace go on from those of `s`. -/
theorem emit_setMs_takeMove (e : Event) (m : MicroStep) (b : Bus) (s : State) :
    emit e (setMs m { takeMove s with bus := b }) =
      { takeMove s with
        bus := b, block := { s.block with ms := m }, trace := s.trace ++ [e] } := by
  simp [emit, setMs]

/-- Settles O29: T2's write, event and next micro-step are the common control shape. -/
theorem t2DisablesTheInterrupt : Obligations.T2DisablesTheInterrupt := by
  intro s h
  rw [step_eq_stepT2 h, stepT2, emit_setMs_takeMove, takeMove_bus]

/-- Settles O33: T6 clears `TC` without reading it, in the common control shape. -/
theorem t6ClearsTheCompletionFlag : Obligations.T6ClearsTheCompletionFlag := by
  intro s h
  rw [step_eq_stepT6 h, stepT6, emit_setMs_takeMove, takeMove_bus]

/-- Settles O34: T7T has the common control shape; T7W's guard reads the `RFL` of `s`. -/
theorem t7FlushesTheReceivePath : Obligations.T7FlushesTheReceivePath := by
  refine fun s => ⟨fun h => ?trigger, fun h => ?wait⟩
  case trigger => rw [step_eq_stepT7T h, stepT7T, emit_setMs_takeMove, takeMove_bus]
  case wait => rw [step_eq_stepT7W h, stepT7W, takeMove_bus, hold]

end Sys2Proof.Machine
end

section
/-! PROOFS. A command that is one register write: what a taken command leaves in the latch and what its
completed trace holds; the statements about SETSCAN, SETDECODE, SETSHDN and SETTEST of
spec/42_register_protocol.md. -/

namespace Sys2Proof.Machine

variable {s t : State} {w : Word24} {i : Instr} {op a b reg v : Byte}

/-! ### What one frame leaves in the trace (00_scope.md R13; 20_memory.md R86) -/

/-- A frame's events close one window of its three bytes and leave no stray byte. -/
@[simp] theorem foldl_next_itemEvents_frame (ws : WindowScan) (a v : Byte) :
    (itemEvents (.frame a v)).foldl WindowScan.next ws =
      { ws with window := none, closed := ws.closed ++ [frameBytes a v] } := rfl

/-- The slave keeps the address and the value of a frame's window. -/
@[simp] theorem imageStep_frameBytes (m : Memory) (a v : Byte) :
    imageStep m (frameBytes a v) = m.write a v := rfl

theorem windows_commandEvents_of_frame (h : itemsOfWord w = some [.frame a v]) :
    windows (commandEvents w) = [frameBytes a v] := by
  simp [windows, scanWindows, commandEvents, h, WindowScan.next, WindowScan.start]

theorem imageOf_commandEvents_of_frame (h : itemsOfWord w = some [.frame a v]) :
    imageOf (commandEvents w) = [(a.toNat, v)] := by
  simp [imageOf, windows_commandEvents_of_frame h, Memory.write]

/-- A latched command is one register write as soon as its item list is that one frame. -/
theorem writesOneRegister_of_currentItems (h : currentItems t = some [.frame reg v]) :
    WritesOneRegister reg v t :=
  ⟨h, windows_commandEvents_of_frame h, imageOf_commandEvents_of_frame h⟩

/-! ### What a taken command leaves in the latch (10_state.md R21, R24) -/

theorem takenAs_latchCommand (op a b : Byte) (s : State) :
    TakenAs op a b s (latchCommand (mkWord op a b) s) := by
  simp [TakenAs, latchCommand, emit]

theorem currentItems_latchCommand (hd : decodeCmd w = .command i) :
    currentItems (latchCommand w s) = items i := by
  rw [currentItems, latchedWord_latchCommand, mkWord_fields, itemsOfWord, hd]

/-- An idle block that is given an in-contract command whose expansion is one frame takes its word, and
what it has latched is that register write (42_register_protocol.md R180). -/
theorem acceptCommand_writesOneRegister (hidle : s.block.phase = .idle) (hwf : i.wellFormed = true)
    (henc : encode i = mkWord op a b) (hdec : decodeCmd (mkWord op a b) = .command i)
    (hitems : items i = some [.frame reg v]) :
    ∃ t, acceptCommand i s = .next t ∧ TakenAs op a b s t ∧ WritesOneRegister reg v t :=
  ⟨latchCommand (mkWord op a b) s, henc ▸ acceptCommand_idle hidle hwf, takenAs_latchCommand op a b s,
    writesOneRegister_of_currentItems ((currentItems_latchCommand hdec).trans hitems)⟩

/-! ### The commands (42_register_protocol.md R181 to R186) -/

theorem decodeCmd_setScan : decodeCmd (mkWord 0x03 0x00 0x00) = .command .setScan := by decide

theorem decodeCmd_setDecode : decodeCmd (mkWord 0x04 0x00 0x00) = .command .setDecode := by decide

theorem decodeCmd_setShdn (mode : ShdnMode) :
    decodeCmd (mkWord 0x05 0x00 (shdnBit mode)) = .command (.setShdn mode) := by
  cases mode <;> decide

theorem decodeCmd_setTest (mode : TestMode) :
    decodeCmd (mkWord 0x06 0x00 (testBit mode)) = .command (.setTest mode) := by
  cases mode <;> decide

theorem exec_setShdn_writesOneRegister (hidle : s.block.phase = .idle) (mode : ShdnMode) :
    ∃ t, exec (.setShdn mode) s = .next t ∧ TakenAs 0x05 0x00 (shdnBit mode) s t ∧
      WritesOneRegister Config.addrShutdown (Config.valShdn mode) t :=
  acceptCommand_writesOneRegister hidle rfl rfl (decodeCmd_setShdn mode) rfl

theorem exec_setTest_writesOneRegister (hidle : s.block.phase = .idle) (mode : TestMode) :
    ∃ t, exec (.setTest mode) s = .next t ∧ TakenAs 0x06 0x00 (testBit mode) s t ∧
      WritesOneRegister Config.addrDispTest (Config.valTest mode) t :=
  acceptCommand_writesOneRegister hidle rfl rfl (decodeCmd_setTest mode) rfl

/-- Settles O11: SETSCAN is in contract and expands to the one frame with `VAL_SCAN_ALL8`. -/
theorem setScanWritesTheScanLimit : Obligations.SetScanWritesTheScanLimit :=
  fun _ hidle => acceptCommand_writesOneRegister hidle rfl rfl decodeCmd_setScan rfl

/-- Settles O12: SETDECODE is in contract and expands to the one frame with `VAL_NO_DECODE`. -/
theorem setDecodeWritesNoDecode : Obligations.SetDecodeWritesNoDecode :=
  fun _ hidle => acceptCommand_writesOneRegister hidle rfl rfl decodeCmd_setDecode rfl

/-- Settles O13: the register write of each mode, with the mode in `B[0]`. -/
theorem setShdnWritesItsMode : Obligations.SetShdnWritesItsMode := fun _ hidle =>
  ⟨exec_setShdn_writesOneRegister hidle .shutdown, exec_setShdn_writesOneRegister hidle .normal⟩

/-- Settles O14: the register write of each mode, with the mode in `B[0]`. -/
theorem setTestWritesItsMode : Obligations.SetTestWritesItsMode := fun _ hidle =>
  ⟨exec_setTest_writesOneRegister hidle .normal, exec_setTest_writesOneRegister hidle .test⟩

end Sys2Proof.Machine
end

section
/-! PROOFS. The mapper commands: what the two tables answer on in-contract operands, and the statements
about SETDIGIT and SETGLYPH of spec/43_mapper.md. -/

namespace Sys2Proof.Machine

variable {s : State} {i : Instr} {d g p : Byte}

/-! ### The tables on their domains (10_state.md R46, R47) -/

theorem positionInContract_iff : positionInContract p = true ↔ 1 ≤ p.toNat ∧ p.toNat ≤ 8 := by
  simp [positionInContract]

theorem digitInContract_iff : digitInContract d = true ↔ d.toNat ≤ 9 := by
  simp [digitInContract]

theorem position_cases (hp : positionInContract p = true) :
    p = 1 ∨ p = 2 ∨ p = 3 ∨ p = 4 ∨ p = 5 ∨ p = 6 ∨ p = 7 ∨ p = 8 := by
  obtain ⟨hlow, hhigh⟩ := positionInContract_iff.1 hp
  bv_omega

/-- The digit register of a position has the position as its address. -/
theorem digitAddrOf_of_positionInContract (hp : positionInContract p = true) :
    digitAddrOf p = some p := by
  obtain rfl | rfl | rfl | rfl | rfl | rfl | rfl | rfl := position_cases hp <;> rfl

theorem exists_glyphOf_of_digitInContract (hd : digitInContract d = true) :
    ∃ g, glyphOf d = some g :=
  ⟨_, List.getElem?_eq_getElem (Nat.lt_succ_of_le (digitInContract_iff.1 hd))⟩

/-! ### The item lists (43_mapper.md R201, R203) -/

theorem items_setDigit (hp : positionInContract p = true) (hg : glyphOf d = some g) :
    items (.setDigit d p) = some [.frame p g] := by
  simp [items, itemsSetDigit, digitAddrOf_of_positionInContract hp, hg]

theorem items_setGlyph (hp : positionInContract p = true) :
    items (.setGlyph g p) = some [.frame p g] := by
  simp [items, itemsSetGlyph, digitAddrOf_of_positionInContract hp]

/-! ### The decoder on the two words (30_encoding.md R114) -/

theorem checkRanges_of_wellFormed (hwf : i.wellFormed = true) : checkRanges i = .command i :=
  if_pos hwf

theorem decodeCmd_setDigit (d p : Byte) :
    decodeCmd (mkWord 0x08 d p) = checkRanges (.setDigit d p) := by
  rw [decodeCmd, fieldHi_mkWord, fieldMid_mkWord, fieldLo_mkWord]
  rfl

theorem decodeCmd_setGlyph (g p : Byte) :
    decodeCmd (mkWord 0x09 g p) = checkRanges (.setGlyph g p) := by
  rw [decodeCmd, fieldHi_mkWord, fieldMid_mkWord, fieldLo_mkWord]
  rfl

/-! ### The statements -/

/-- Settles O16: both tables have their entry, so the item list is the one frame of the glyph at the
position. -/
theorem setDigitWritesItsGlyph : Obligations.SetDigitWritesItsGlyph := by
  intro s d p hidle hd hlow hhigh
  have hdigit : digitInContract d = true := digitInContract_iff.2 hd
  have hpos : positionInContract p = true := positionInContract_iff.2 ⟨hlow, hhigh⟩
  have hwf : (Instr.setDigit d p).wellFormed = true := by simp [Instr.wellFormed, hdigit, hpos]
  obtain ⟨g, hg⟩ := exists_glyphOf_of_digitInContract hdigit
  obtain ⟨t, hexec, htaken, hwrites⟩ := acceptCommand_writesOneRegister hidle hwf rfl
    ((decodeCmd_setDigit d p).trans (checkRanges_of_wellFormed hwf)) (items_setDigit hpos hg)
  exact ⟨t, g, hexec, htaken, hg, hwrites⟩

/-- Settles O17: the position has its table entry, and the pattern goes through unread. -/
theorem setGlyphWritesItsPattern : Obligations.SetGlyphWritesItsPattern := by
  intro s g p hidle hlow hhigh
  have hpos : positionInContract p = true := positionInContract_iff.2 ⟨hlow, hhigh⟩
  exact acceptCommand_writesOneRegister (i := .setGlyph g p) hidle hpos rfl
    ((decodeCmd_setGlyph g p).trans (checkRanges_of_wellFormed hpos)) (items_setGlyph hpos)

end Sys2Proof.Machine
end

section
/-! PROOFS. The sequencer's composite commands: the parts their item lists are built of, and the
statements about INITDISP, CLRDISP and SELFTEST of spec/44_sequencer.md. -/

namespace Sys2Proof.Machine

variable {s : State} {i : Instr} {op a b : Byte} {l : List Item}

/-! ### The parts of the item lists, written out (44_sequencer.md R215, R223) -/

theorem clearItems_eq : clearItems =
    [.frame 1 0x00, .frame 2 0x00, .frame 3 0x00, .frame 4 0x00,
     .frame 5 0x00, .frame 6 0x00, .frame 7 0x00, .frame 8 0x00] := rfl

theorem holdItems_eq : holdItems = [.wait .ms 500] := rfl

theorem selfTestDigits_eq : selfTestDigits =
    [.frame 1 0x7E, .frame 2 0x30, .frame 3 0x6D, .frame 4 0x79,
     .frame 5 0x33, .frame 6 0x5B, .frame 7 0x5F, .frame 8 0x70] := rfl

theorem selfTestLastDigits_eq : selfTestLastDigits = [.frame 1 0x7F, .frame 2 0x7B] := rfl

theorem selfTestLetters_eq : selfTestLetters =
    [.frame 3 (Config.letter 0), .frame 4 (Config.letter 1), .frame 5 (Config.letter 2),
     .frame 6 (Config.letter 3), .frame 7 (Config.letter 4)] := rfl

/-! ### The three command words (44_sequencer.md R220 to R222) -/

theorem decodeCmd_initDisp : decodeCmd (mkWord 0x01 0x00 0x00) = .command .initDisp := by decide

theorem decodeCmd_clrDisp : decodeCmd (mkWord 0x02 0x00 0x00) = .command .clrDisp := by decide

theorem decodeCmd_selfTest : decodeCmd (mkWord 0x0A 0x00 0x00) = .command .selfTest := by decide

/-! ### Acceptance -/

/-- An idle block that is given an in-contract command takes its word, and what it has latched expands
to that command's items, whatever the state was (44_sequencer.md R215). -/
theorem acceptCommand_currentItems (hidle : s.block.phase = .idle) (hwf : i.wellFormed = true)
    (henc : encode i = mkWord op a b) (hdec : decodeCmd (mkWord op a b) = .command i)
    (hitems : items i = some l) :
    ∃ t, acceptCommand i s = .next t ∧ TakenAs op a b s t ∧ currentItems t = some l :=
  ⟨latchCommand (mkWord op a b) s, henc ▸ acceptCommand_idle hidle hwf, takenAs_latchCommand op a b s,
    (currentItems_latchCommand hdec).trans hitems⟩

/-! ### The statements -/

/-- Settles O18: the four set-up frames, the eight clears written out, and the intensity frame. -/
theorem initDispExpandsInOrder : Obligations.InitDispExpandsInOrder := by
  refine fun s hidle => acceptCommand_currentItems hidle rfl rfl decodeCmd_initDisp ?_
  simp only [items, itemsInitDisp, clearItems_eq, Config.valScanAll8, Config.valNoDecode,
    List.cons_append, List.nil_append]

/-- Settles O19: the item list is the eight clears. -/
theorem clrDispExpandsInOrder : Obligations.ClrDispExpandsInOrder :=
  fun _ hidle => acceptCommand_currentItems hidle rfl rfl decodeCmd_clrDisp (congrArg some clearItems_eq)

/-- Settles O20: the four groups, each ended by a hold, with every part written out. -/
theorem selfTestExpandsInOrder : Obligations.SelfTestExpandsInOrder := by
  refine fun s hidle => acceptCommand_currentItems hidle rfl rfl decodeCmd_selfTest ?_
  simp only [items, itemsSelfTest, selfTestDigits_eq, holdItems_eq, clearItems_eq,
    selfTestLastDigits_eq, selfTestLetters_eq, List.cons_append, List.nil_append]

end Sys2Proof.Machine
end

section
/-! PROOFS. The encoding of spec/30_encoding.md: decode of encode and encode of decode in both formats,
and the rows of the table by mask and match. -/

namespace Sys2Proof.Machine

variable {w : Word24} {i j : Instr} {op a b o v a' : Byte}

/-! ### The decoders on a word given by its bytes (R100, R108) -/

@[simp] theorem decodeCmd_mkWord (op a b : Byte) :
    decodeCmd (mkWord op a b) = decodeFields op a b := by
  rw [decodeCmd, fieldHi_mkWord, fieldMid_mkWord, fieldLo_mkWord]

@[simp] theorem decodeFrame_mkWord (o a v : Byte) :
    decodeFrame (mkWord o a v) = decodeAddress o a v := by
  rw [decodeFrame, fieldHi_mkWord, fieldMid_mkWord, fieldLo_mkWord]

/-! ### Decode of encode (R111, R114, R102) -/

/-- The decoder finds a command in its own word, and answers by the range checks alone. -/
theorem decodeCmd_encode (hi : i.format = .cmd24) : decodeCmd (encode i) = checkRanges i := by
  cases i with
  | initDisp | clrDisp | setScan | setDecode | selfTest => decide
  | setShdn mode | setTest mode => cases mode <;> decide
  | setInt _ | setDigit _ _ | setGlyph _ _ => rw [encode, decodeCmd_mkWord]; rfl
  | waitUs n | waitMs n =>
    rw [encode, decodeCmd_mkWord]
    simp [decodeFields]
  | _ => cases hi

/-- The wire decoder finds a frame in its own word. -/
theorem decodeFrame_encode (hi : i.format = .frame24) : decodeFrame (encode i) = .frame i := by
  cases i with
  | fNoop _ _ | fDigit1 _ _ | fDigit2 _ _ | fDigit3 _ _ | fDigit4 _ _ | fDigit5 _ _ | fDigit6 _ _
  | fDigit7 _ _ | fDigit8 _ _ | fDecode _ _ | fIntensity _ _ | fScanLimit _ _ | fShutdown _ _
  | fDispTest _ _ => rw [encode, decodeFrame_mkWord]; rfl
  | _ => cases hi

/-- Settles O4: the decoder answers the range checks of the command, which are the two verdicts. -/
theorem decodeOfEncodedCommand : Obligations.DecodeOfEncodedCommand :=
  fun _ hi => decodeCmd_encode hi

/-- Settles O5. -/
theorem decodeOfEncodedFrame : Obligations.DecodeOfEncodedFrame :=
  fun _ hi => decodeFrame_encode hi

/-! ### Encode of decode -/

/-- A word whose verdict is the range check of a command it encodes, if it is not reserved: what every
row of R110 has in common. -/
def DecodesByRow (v : CmdVerdict) (w : Word24) : Prop :=
  v = .reserved ∨ ∃ i : Instr, i.format = .cmd24 ∧ encode i = w ∧ v = checkRanges i

theorem decodesByRow_decodePlain (hi : i.format = .cmd24) (he : encode i = mkWord op 0 0) :
    DecodesByRow (decodePlain i a b) (mkWord op a b) := by
  unfold decodePlain
  split
  · next h =>
    obtain ⟨rfl, rfl⟩ := h
    exact .inr ⟨i, hi, he, rfl⟩
  · exact .inl rfl

theorem decodesByRow_decodeMode (hi : i.format = .cmd24) (hj : j.format = .cmd24)
    (hei : encode i = mkWord op 0 0) (hej : encode j = mkWord op 0 1) :
    DecodesByRow (decodeMode i j a b) (mkWord op a b) := by
  unfold decodeMode
  split
  · next h =>
    obtain ⟨rfl, rfl⟩ := h
    exact .inr ⟨i, hi, hei, rfl⟩
  · split
    · next h =>
      obtain ⟨rfl, rfl⟩ := h
      exact .inr ⟨j, hj, hej, rfl⟩
    · exact .inl rfl

theorem decodesByRow_setInt :
    DecodesByRow (if a = 0 then checkRanges (.setInt b) else .reserved) (mkWord 0x07 a b) := by
  split
  · next h =>
    subst h
    exact .inr ⟨.setInt b, rfl, rfl, rfl⟩
  · exact .inl rfl

/-- A verdict that is the range check of a command on its own word. -/
theorem decodesByRow_checkRanges (hi : i.format = .cmd24) (he : encode i = w) :
    DecodesByRow (checkRanges i) w := .inr ⟨i, hi, he, rfl⟩

/-- The rows of R110 one by one: the opcode byte selects the row. -/
theorem decodesByRow_decodeFields (op a b : Byte) :
    DecodesByRow (decodeFields op a b) (mkWord op a b) := by
  have hop (n : Nat) (h : op.toNat = n) : op = BitVec.ofNat 8 n := by simp [← h]
  unfold decodeFields
  split
  case h_1 h => rw [hop _ h]; exact decodesByRow_decodePlain rfl rfl
  case h_2 h => rw [hop _ h]; exact decodesByRow_decodePlain rfl rfl
  case h_3 h => rw [hop _ h]; exact decodesByRow_decodePlain rfl rfl
  case h_4 h => rw [hop _ h]; exact decodesByRow_decodePlain rfl rfl
  case h_5 h => rw [hop _ h]; exact decodesByRow_decodeMode rfl rfl rfl rfl
  case h_6 h => rw [hop _ h]; exact decodesByRow_decodeMode rfl rfl rfl rfl
  case h_7 h => rw [hop _ h]; exact decodesByRow_setInt
  case h_8 h => rw [hop _ h]; exact decodesByRow_checkRanges rfl rfl
  case h_9 h => rw [hop _ h]; exact decodesByRow_checkRanges rfl rfl
  case h_10 h => rw [hop _ h]; exact decodesByRow_decodePlain rfl rfl
  case h_11 h => rw [hop _ h]; exact decodesByRow_checkRanges rfl (by simp [encode])
  case h_12 h => rw [hop _ h]; exact decodesByRow_checkRanges rfl (by simp [encode])
  case h_13 => exact .inl rfl

/-- A word is reserved, or it is the word of a command and the verdict is that command's range check
(R111 to R114). -/
theorem decodeCmd_cases (w : Word24) : DecodesByRow (decodeCmd w) w := by
  simpa only [← decodeCmd_mkWord, mkWord_fields] using
    decodesByRow_decodeFields (fieldHi w) (fieldMid w) (fieldLo w)

theorem checkRanges_eq_command_iff : checkRanges i = .command j ↔ i = j ∧ j.wellFormed = true := by
  unfold checkRanges
  grind

theorem checkRanges_eq_outOfContract_iff :
    checkRanges i = .outOfContract j ↔ i = j ∧ j.wellFormed = false := by
  unfold checkRanges
  grind

theorem checkRanges_ne_reserved : checkRanges i ≠ .reserved := by
  unfold checkRanges
  split <;> exact CmdVerdict.noConfusion

/-- What a command verdict says of its word. -/
theorem encode_of_decodeCmd_eq_command (h : decodeCmd w = .command i) :
    encode i = w ∧ i.format = .cmd24 ∧ i.wellFormed = true := by
  obtain hres | ⟨j, hformat, henc, hj⟩ := decodeCmd_cases w
  · rw [h] at hres; cases hres
  · obtain ⟨rfl, hwf⟩ := checkRanges_eq_command_iff.1 (hj.symm.trans h)
    exact ⟨henc, hformat, hwf⟩

/-- What an out-of-contract verdict says of its word. -/
theorem encode_of_decodeCmd_eq_outOfContract (h : decodeCmd w = .outOfContract i) :
    encode i = w ∧ i.format = .cmd24 ∧ i.wellFormed = false := by
  obtain hres | ⟨j, hformat, henc, hj⟩ := decodeCmd_cases w
  · rw [h] at hres; cases hres
  · obtain ⟨rfl, hwf⟩ := checkRanges_eq_outOfContract_iff.1 (hj.symm.trans h)
    exact ⟨henc, hformat, hwf⟩

/-- A wire verdict that names the frame whose encoding the three bytes are, or the address byte where
there is none: what every row of R102 has in common. -/
def DecodesByAddress (o a v : Byte) (r : WireVerdict) : Prop :=
  (∃ i, r = .frame i ∧ encode i = mkWord o a v ∧ i.format = .frame24) ∨ r = .unmapped a

/-- The rows of R102 one by one: each compares the address byte with the address its kind is encoded
with. -/
theorem decodesByAddress_decodeAddress (o a v : Byte) :
    DecodesByAddress o a v (decodeAddress o a v) := by
  unfold decodeAddress
  iterate 14
    refine iteInduction (fun ha => .inl ⟨_, rfl, ha ▸ rfl, rfl⟩) fun _ => ?_
  exact .inr rfl

theorem decodeFrame_cases (w : Word24) :
    DecodesByAddress (fieldHi w) (fieldMid w) (fieldLo w) (decodeFrame w) :=
  decodesByAddress_decodeAddress _ _ _

/-- What a frame verdict says of its word. -/
theorem encode_of_decodeFrame_eq_frame (h : decodeFrame w = .frame i) :
    encode i = w ∧ i.format = .frame24 := by
  obtain ⟨j, hj, henc, hformat⟩ | hres := decodeFrame_cases w
  · cases h.symm.trans hj
    exact ⟨henc.trans (mkWord_fields w), hformat⟩
  · cases h.symm.trans hres

/-- What an unmapped verdict says of its word: a frame with that address byte would have been found. -/
theorem fieldMid_of_decodeFrame_eq_unmapped (h : decodeFrame w = .unmapped a) : a = fieldMid w := by
  obtain ⟨j, hj, -, -⟩ | hres := decodeFrame_cases w
  · cases h.symm.trans hj
  · exact WireVerdict.unmapped.inj (h.symm.trans hres)

/-- The address byte of a frame's word is mapped, whatever the other two bytes are. -/
theorem exists_decodeAddress_fieldMid_encode (hi : i.format = .frame24) (o v : Byte) :
    ∃ j, decodeAddress o (fieldMid (encode i)) v = .frame j := by
  cases i with
  | fNoop _ _ | fDigit1 _ _ | fDigit2 _ _ | fDigit3 _ _ | fDigit4 _ _ | fDigit5 _ _ | fDigit6 _ _
  | fDigit7 _ _ | fDigit8 _ _ | fDecode _ _ | fIntensity _ _ | fScanLimit _ _ | fShutdown _ _
  | fDispTest _ _ => rw [encode, fieldMid_mkWord]; exact ⟨_, rfl⟩
  | _ => cases hi

theorem fieldMid_encode_ne_of_unmapped (h : decodeFrame w = .unmapped a)
    (hi : i.format = .frame24) : fieldMid (encode i) ≠ a := by
  intro heq
  obtain ⟨j, hj⟩ := exists_decodeAddress_fieldMid_encode hi (fieldHi w) (fieldLo w)
  rw [heq, fieldMid_of_decodeFrame_eq_unmapped h] at hj
  cases h.symm.trans hj

/-- Settles O6: the inversion of each decoder, verdict by verdict. -/
theorem encodeOfDecodedWord : Obligations.EncodeOfDecodedWord := fun _ _ =>
  ⟨encode_of_decodeCmd_eq_command, encode_of_decodeCmd_eq_outOfContract,
    encode_of_decodeFrame_eq_frame,
    fun _ h => ⟨fieldMid_of_decodeFrame_eq_unmapped h, fieldMid_encode_ne_of_unmapped h⟩⟩

/-! ### The rows by mask and match (R102, R110) -/

/-- Masking a word masks its fields. -/
theorem and_mkWord_eq_iff (w : Word24) (mx my mz x y z : Byte) :
    w &&& mkWord mx my mz = mkWord x y z ↔
      fieldHi w &&& mx = x ∧ fieldMid w &&& my = y ∧ fieldLo w &&& mz = z := by
  rw [← mkWord_inj, ← mkWord_and, mkWord_fields]

/-- A mode row leaves bit 0 of `B` free. -/
theorem eq_zero_or_one_of_and_eq_zero : ∀ b : Byte, b &&& 0xFE = 0 → b = 0 ∨ b = 1 := by decide

theorem eq_mkWord_of_opcode_row (op : Byte) (h : w &&& mkWord 0xFF 0 0 = mkWord op 0 0) :
    mkWord op (fieldMid w) (fieldLo w) = w := by
  obtain ⟨hhi, -, -⟩ := (and_mkWord_eq_iff ..).1 h
  rw [← hhi, and_ones, mkWord_fields]

theorem eq_mkWord_of_operand_row (op a : Byte) (h : w &&& mkWord 0xFF 0xFF 0 = mkWord op a 0) :
    mkWord op a (fieldLo w) = w := by
  obtain ⟨hhi, hmid, -⟩ := (and_mkWord_eq_iff ..).1 h
  rw [← hhi, ← hmid, and_ones, and_ones, mkWord_fields]

theorem eq_mkWord_of_address_row (a : Byte) (h : w &&& mkWord 0 0xFF 0 = mkWord 0 a 0) :
    mkWord (fieldHi w) a (fieldLo w) = w := by
  obtain ⟨-, hmid, -⟩ := (and_mkWord_eq_iff ..).1 h
  rw [← hmid, and_ones, mkWord_fields]

theorem eq_mkWord_of_mode_row (op : Byte) (h : w &&& mkWord 0xFF 0xFF 0xFE = mkWord op 0 0) :
    mkWord op 0 0 = w ∨ mkWord op 0 1 = w := by
  obtain ⟨hhi, hmid, hlo⟩ := (and_mkWord_eq_iff ..).1 h
  rw [and_ones] at hhi hmid
  have hw : mkWord op 0 (fieldLo w) = w := by rw [← hhi, ← hmid, mkWord_fields]
  obtain hb | hb := eq_zero_or_one_of_and_eq_zero _ hlo
  · exact .inl (by rwa [hb] at hw)
  · exact .inr (by rwa [hb] at hw)

theorem eq_of_full_row {m : Word24} (h : w &&& 0xFFFFFF = m) : m = w :=
  h.symm.trans BitVec.and_allOnes

/-- A word that matches the row of an instruction is the word of an instruction of that row. -/
theorem exists_encode_of_row (h : w &&& (tableRow i).1 = (tableRow i).2) :
    ∃ j : Instr, j.format = i.format ∧ j.mnemonic = i.mnemonic ∧ encode j = w := by
  cases i with
  | initDisp => exact ⟨.initDisp, rfl, rfl, eq_of_full_row h⟩
  | clrDisp => exact ⟨.clrDisp, rfl, rfl, eq_of_full_row h⟩
  | setScan => exact ⟨.setScan, rfl, rfl, eq_of_full_row h⟩
  | setDecode => exact ⟨.setDecode, rfl, rfl, eq_of_full_row h⟩
  | setShdn _ =>
    exact (eq_mkWord_of_mode_row 0x05 h).elim (⟨.setShdn .shutdown, rfl, rfl, ·⟩)
      (⟨.setShdn .normal, rfl, rfl, ·⟩)
  | setTest _ =>
    exact (eq_mkWord_of_mode_row 0x06 h).elim (⟨.setTest .normal, rfl, rfl, ·⟩)
      (⟨.setTest .test, rfl, rfl, ·⟩)
  | setInt _ => exact ⟨.setInt (fieldLo w), rfl, rfl, eq_mkWord_of_operand_row 0x07 0 h⟩
  | setDigit _ _ =>
    exact ⟨.setDigit (fieldMid w) (fieldLo w), rfl, rfl, eq_mkWord_of_opcode_row 0x08 h⟩
  | setGlyph _ _ =>
    exact ⟨.setGlyph (fieldMid w) (fieldLo w), rfl, rfl, eq_mkWord_of_opcode_row 0x09 h⟩
  | selfTest => exact ⟨.selfTest, rfl, rfl, eq_of_full_row h⟩
  | waitUs _ =>
    exact ⟨.waitUs (mkCount (fieldMid w) (fieldLo w)), rfl, rfl, by
      simpa [encode] using eq_mkWord_of_opcode_row 0x0B h⟩
  | waitMs _ =>
    exact ⟨.waitMs (mkCount (fieldMid w) (fieldLo w)), rfl, rfl, by
      simpa [encode] using eq_mkWord_of_opcode_row 0x0C h⟩
  | fNoop _ _ =>
    exact ⟨.fNoop (fieldHi w) (fieldLo w), rfl, rfl, eq_mkWord_of_address_row Config.addrNoop h⟩
  | fDigit1 _ _ =>
    exact ⟨.fDigit1 (fieldHi w) (fieldLo w), rfl, rfl, eq_mkWord_of_address_row Config.addrDigit1 h⟩
  | fDigit2 _ _ =>
    exact ⟨.fDigit2 (fieldHi w) (fieldLo w), rfl, rfl, eq_mkWord_of_address_row Config.addrDigit2 h⟩
  | fDigit3 _ _ =>
    exact ⟨.fDigit3 (fieldHi w) (fieldLo w), rfl, rfl, eq_mkWord_of_address_row Config.addrDigit3 h⟩
  | fDigit4 _ _ =>
    exact ⟨.fDigit4 (fieldHi w) (fieldLo w), rfl, rfl, eq_mkWord_of_address_row Config.addrDigit4 h⟩
  | fDigit5 _ _ =>
    exact ⟨.fDigit5 (fieldHi w) (fieldLo w), rfl, rfl, eq_mkWord_of_address_row Config.addrDigit5 h⟩
  | fDigit6 _ _ =>
    exact ⟨.fDigit6 (fieldHi w) (fieldLo w), rfl, rfl, eq_mkWord_of_address_row Config.addrDigit6 h⟩
  | fDigit7 _ _ =>
    exact ⟨.fDigit7 (fieldHi w) (fieldLo w), rfl, rfl, eq_mkWord_of_address_row Config.addrDigit7 h⟩
  | fDigit8 _ _ =>
    exact ⟨.fDigit8 (fieldHi w) (fieldLo w), rfl, rfl, eq_mkWord_of_address_row Config.addrDigit8 h⟩
  | fDecode _ _ =>
    exact ⟨.fDecode (fieldHi w) (fieldLo w), rfl, rfl, eq_mkWord_of_address_row Config.addrDecode h⟩
  | fIntensity _ _ =>
    exact ⟨.fIntensity (fieldHi w) (fieldLo w), rfl, rfl,
      eq_mkWord_of_address_row Config.addrIntensity h⟩
  | fScanLimit _ _ =>
    exact ⟨.fScanLimit (fieldHi w) (fieldLo w), rfl, rfl,
      eq_mkWord_of_address_row Config.addrScanLimit h⟩
  | fShutdown _ _ =>
    exact ⟨.fShutdown (fieldHi w) (fieldLo w), rfl, rfl,
      eq_mkWord_of_address_row Config.addrShutdown h⟩
  | fDispTest _ _ =>
    exact ⟨.fDispTest (fieldHi w) (fieldLo w), rfl, rfl,
      eq_mkWord_of_address_row Config.addrDispTest h⟩

/-- Every instruction's word matches its own row. -/
theorem encode_row (i : Instr) : encode i &&& (tableRow i).1 = (tableRow i).2 := by
  cases i with
  | initDisp => exact Laws.EncodingRow.initDisp
  | clrDisp => exact Laws.EncodingRow.clrDisp
  | setScan => exact Laws.EncodingRow.setScan
  | setDecode => exact Laws.EncodingRow.setDecode
  | setShdn mode => exact Laws.EncodingRow.setShdn mode
  | setTest mode => exact Laws.EncodingRow.setTest mode
  | setInt level => exact Laws.EncodingRow.setInt level
  | setDigit value position => exact Laws.EncodingRow.setDigit value position
  | setGlyph pattern position => exact Laws.EncodingRow.setGlyph pattern position
  | selfTest => exact Laws.EncodingRow.selfTest
  | waitUs n => exact Laws.EncodingRow.waitUs n
  | waitMs n => exact Laws.EncodingRow.waitMs n
  | fNoop o v => exact Laws.EncodingRow.fNoop o v
  | fDigit1 o v => exact Laws.EncodingRow.fDigit1 o v
  | fDigit2 o v => exact Laws.EncodingRow.fDigit2 o v
  | fDigit3 o v => exact Laws.EncodingRow.fDigit3 o v
  | fDigit4 o v => exact Laws.EncodingRow.fDigit4 o v
  | fDigit5 o v => exact Laws.EncodingRow.fDigit5 o v
  | fDigit6 o v => exact Laws.EncodingRow.fDigit6 o v
  | fDigit7 o v => exact Laws.EncodingRow.fDigit7 o v
  | fDigit8 o v => exact Laws.EncodingRow.fDigit8 o v
  | fDecode o v => exact Laws.EncodingRow.fDecode o v
  | fIntensity o v => exact Laws.EncodingRow.fIntensity o v
  | fScanLimit o v => exact Laws.EncodingRow.fScanLimit o v
  | fShutdown o v => exact Laws.EncodingRow.fShutdown o v
  | fDispTest o v => exact Laws.EncodingRow.fDispTest o v

/-- Settles O7: a word that matches a command row is a command's word, which is never reserved, and a
word with a verdict is the word of that verdict's command, which matches its own row. -/
theorem decodeFollowsTheRowMasks : Obligations.DecodeFollowsTheRowMasks := by
  refine fun w => ⟨⟨fun hres i hi hrow => ?_, fun hnone => ?_⟩, fun i h => ?_⟩
  · obtain ⟨j, hformat, -, rfl⟩ := exists_encode_of_row hrow
    exact checkRanges_ne_reserved ((decodeCmd_encode (hformat.trans hi)).symm.trans hres)
  · obtain hres | ⟨i, hformat, rfl, -⟩ := decodeCmd_cases w
    · exact hres
    · exact absurd (encode_row i) (hnone i hformat)
  · obtain h | h := h
    · exact (encode_of_decodeCmd_eq_command h).1 ▸ encode_row i
    · exact (encode_of_decodeCmd_eq_outOfContract h).1 ▸ encode_row i

theorem encode_injOn_format (hformat : i.format = j.format) (h : encode i = encode j) : i = j := by
  cases hj : j.format with
  | cmd24 =>
    have hcheck : checkRanges i = checkRanges j := by
      rw [← decodeCmd_encode (hformat.trans hj), ← decodeCmd_encode hj, h]
    unfold checkRanges at hcheck
    grind
  | frame24 =>
    refine WireVerdict.frame.inj ?_
    rw [← decodeFrame_encode (hformat.trans hj), ← decodeFrame_encode hj, h]

/-- Settles O8: the rows of two instructions are matched by words of those rows only, and the encoding
is one-to-one in each format. -/
theorem encodingRowsAreDisjoint : Obligations.EncodingRowsAreDisjoint := by
  intro w i j hformat hi hj
  obtain ⟨i', hfi, hmi, hwi⟩ := exists_encode_of_row hi
  obtain ⟨j', hfj, hmj, hwj⟩ := exists_encode_of_row hj
  have heq : i' = j' := encode_injOn_format (by rw [hfi, hfj, hformat]) (hwi.trans hwj.symm)
  rw [← hmi, ← hmj, heq]

/-- Settles O3: each word by evaluation of the decoder. -/
theorem referenceWordsDecode : Obligations.ReferenceWordsDecode := by
  unfold Obligations.ReferenceWordsDecode
  decide
end Sys2Proof.Machine
end

section
/-! PROOFS. What exec answers, once for all commands and once for all frames, and the statements about
them of spec/10_state.md, spec/20_memory.md section 4 and spec/44_sequencer.md section 1. -/

namespace Sys2Proof.Machine

variable {s t : State} {i : Instr} {w : Word24} {a b o v : Byte} {l : List Item} {bs : List Byte}

/-! ### Commands (10_state.md R24) -/

/-- The commands whose acceptance marks the run: SETINT above 15 (42_register_protocol.md R188; log
14). -/
def marksRun : Instr → Bool
  | .setInt level => 15 < level.toNat
  | _ => false

/-- What an idle block makes of a command is ACCEPT, on the state its mark is set in. -/
theorem exec_command_idle (hi : i.format = .cmd24) (hidle : s.block.phase = .idle) :
    exec i s = acceptCommand i { s with intMark := s.intMark || marksRun i } := by
  cases i with
  | setInt level => simp [exec, execSetInt, cmdReady, hidle, markIntensity, marksRun]
  | initDisp | clrDisp | setScan | setDecode | setShdn _ | setTest _ | setDigit _ _ | setGlyph _ _
  | selfTest | waitUs _ | waitMs _ => simp only [marksRun, Bool.or_false]; rfl
  | _ => cases hi

/-- A busy block takes no command, and marks nothing. -/
theorem exec_command_run (hi : i.format = .cmd24) (hrun : s.block.phase = .run) :
    exec i s = .next s := by
  cases i with
  | setInt level => simp [exec, execSetInt, cmdReady, hrun, acceptCommand_run]
  | initDisp | clrDisp | setScan | setDecode | setShdn _ | setTest _ | setDigit _ _ | setGlyph _ _
  | selfTest | waitUs _ | waitMs _ => exact acceptCommand_run hrun
  | _ => cases hi

/-- An idle block latches an in-contract command. -/
theorem exec_command_wellFormed (hi : i.format = .cmd24) (hidle : s.block.phase = .idle)
    (hwf : i.wellFormed = true) :
    exec i s = .next (latchCommand (encode i) { s with intMark := s.intMark || marksRun i }) :=
  (exec_command_idle hi hidle).trans (acceptCommand_idle hidle hwf)

/-- An idle block refuses an out-of-contract command by name. -/
theorem exec_command_refused (hi : i.format = .cmd24) (hidle : s.block.phase = .idle)
    (hwf : i.wellFormed = false) : exec i s = .refused (.outOfContract i.mnemonic) := by
  rw [exec_command_idle hi hidle, acceptCommand]
  simp [hidle, hwf]

/-- Everything a command that goes on can do. -/
theorem exec_command_next (hi : i.format = .cmd24) (h : exec i s = .next t) :
    (s.block.phase = .run ∧ t = s) ∨
    (s.block.phase = .idle ∧ i.wellFormed = true ∧
      t = latchCommand (encode i) { s with intMark := s.intMark || marksRun i }) := by
  cases hphase : s.block.phase with
  | run =>
    rw [exec_command_run hi hphase] at h
    cases h
    exact .inl ⟨rfl, rfl⟩
  | idle =>
    rw [exec_command_idle hi hphase] at h
    obtain ⟨hrun, -⟩ | ⟨-, hwf, rfl⟩ := acceptCommand_next h
    · cases hphase.symm.trans hrun
    · exact .inr ⟨rfl, hwf, rfl⟩

theorem marksRun_eq_false (h : ∀ level, i ≠ .setInt level) : marksRun i = false := by
  cases i with
  | setInt level => exact absurd rfl (h level)
  | _ => rfl

/-! ### Frames (20_memory.md R71 to R77, R86; 30_encoding.md R102) -/

/-- Whatever its kind, a frame is the slave's latch of the address and the value it is encoded with. -/
theorem exec_frame (hi : i.format = .frame24) :
    exec i s = .next (latchPair (fieldMid (encode i)) (fieldLo (encode i)) s) := by
  cases i with
  | fNoop _ _ | fDigit1 _ _ | fDigit2 _ _ | fDigit3 _ _ | fDigit4 _ _ | fDigit5 _ _ | fDigit6 _ _
  | fDigit7 _ _ | fDigit8 _ _ | fDecode _ _ | fIntensity _ _ | fScanLimit _ _ | fShutdown _ _
  | fDispTest _ _ => rw [encode, fieldMid_mkWord, fieldLo_mkWord]; rfl
  | _ => cases hi

/-- What a frame of any kind leaves: its value in its register and, of the intensity register above 15,
the mark. -/
theorem latched_latchPair (a v : Byte) (s : State) :
    Latched a v { s with intMark := s.intMark || (a = Config.addrIntensity && 15 < v.toNat) }
      (latchPair a v s) := by
  rw [latchPair_eq]
  exact ⟨rfl, Memory.read_write_same .., fun x hx => Memory.read_write_other _ _ _ _ hx⟩

theorem exec_frame_latched (hi : i.format = .frame24) (henc : encode i = mkWord o a v) :
    ∃ t, exec i s = .next t ∧
      Latched a v { s with intMark := s.intMark || (a = Config.addrIntensity && 15 < v.toNat) } t := by
  refine ⟨_, exec_frame hi, ?_⟩
  rw [henc, fieldMid_mkWord, fieldLo_mkWord]
  exact latched_latchPair a v s

/-- A frame of another register than the intensity marks nothing. -/
theorem exec_frame_latched_of_ne (hi : i.format = .frame24) (henc : encode i = mkWord o a v)
    (ha : a ≠ Config.addrIntensity) : ∃ t, exec i s = .next t ∧ Latched a v s t := by
  simpa [ha] using exec_frame_latched (s := s) hi henc

/-- Running the frame a window decodes to is the slave's latch of that window. -/
theorem exec_of_decodeFrame (h : decodeFrame (mkWord o a v) = .frame i) :
    exec i s = .next (latchWindow (some [o, a, v]) s) := by
  obtain ⟨henc, hi⟩ := encode_of_decodeFrame_eq_frame h
  rw [exec_frame hi, henc, fieldMid_mkWord, fieldLo_mkWord]
  rfl

theorem exec_of_decodeWindow (h : decodeWindow bs = .frame i) :
    exec i s = .next (latchWindow (some bs) s) := by
  unfold decodeWindow at h
  split at h
  · exact exec_of_decodeFrame h
  · cases h

/-! ### The item lists (44_sequencer.md R215) -/

/-- Every in-contract command has an item list. -/
theorem exists_items_of_wellFormed (hi : i.format = .cmd24) (hwf : i.wellFormed = true) :
    ∃ l, items i = some l := by
  cases i with
  | setDigit d p =>
    obtain ⟨hd, hp⟩ := Bool.and_eq_true_iff.1 hwf
    obtain ⟨g, hg⟩ := exists_glyphOf_of_digitInContract hd
    exact ⟨_, items_setDigit hp hg⟩
  | setGlyph g p => exact ⟨_, items_setGlyph hwf⟩
  | initDisp | clrDisp | setScan | setDecode | setShdn _ | setTest _ | setInt _ | selfTest | waitUs _
  | waitMs _ => exact ⟨_, rfl⟩
  | _ => cases hi

theorem exists_itemsOfWord_of_command (h : decodeCmd w = .command i) :
    ∃ l, items i = some l ∧ itemsOfWord w = some l := by
  obtain ⟨-, hi, hwf⟩ := encode_of_decodeCmd_eq_command h
  obtain ⟨l, hl⟩ := exists_items_of_wellFormed hi hwf
  refine ⟨l, hl, ?_⟩
  simp only [itemsOfWord, h, hl]

theorem decodeCmd_encode_of_wellFormed (hi : i.format = .cmd24) (hwf : i.wellFormed = true) :
    decodeCmd (encode i) = .command i :=
  (decodeCmd_encode hi).trans (checkRanges_of_wellFormed hwf)

/-- The block steps of a command that is just taken are those of its list (R217). -/
theorem stepsLeft_latchCommand (hi : i.format = .cmd24) (hwf : i.wellFormed = true)
    (hl : items i = some l) : stepsLeft (latchCommand (encode i) s) = listSteps l := by
  have hcurrent : currentItems (latchCommand (encode i) s) = some l :=
    (currentItems_latchCommand (decodeCmd_encode_of_wellFormed hi hwf)).trans hl
  simp [stepsLeft, hcurrent]

theorem listSteps_frame (a v : Byte) : listSteps [.frame a v] = 15 := rfl

theorem listSteps_wait (u : TUnit) (n : Word16) : listSteps [.wait u n] = 4 * n.toNat + 3 := by
  simp [listSteps, itemSteps]
  omega

/-! ### The statements -/

/-- Settles O15: acceptance of the marked state, whose word passes the level through. -/
theorem setIntPassesItsLevelThrough : Obligations.SetIntPassesItsLevelThrough := by
  intro s level hidle
  rw [exec_command_idle rfl hidle]
  exact acceptCommand_writesOneRegister (i := .setInt level) hidle rfl rfl
    (decodeCmd_encode_of_wellFormed (i := .setInt level) rfl rfl) rfl

theorem encode_waitUs_append (a b : Byte) : encode (.waitUs (a ++ b)) = mkWord 0x0B a b := by
  rw [encode, show a ++ b = mkCount a b from rfl, countHi_mkCount, countLo_mkCount]

theorem encode_waitMs_append (a b : Byte) : encode (.waitMs (a ++ b)) = mkWord 0x0C a b := by
  rw [encode, show a ++ b = mkCount a b from rfl, countHi_mkCount, countLo_mkCount]

/-- Settles O21: the count's bytes are latched and give the count back. -/
theorem waitsExpandToOneDelay : Obligations.WaitsExpandToOneDelay := by
  refine fun s a b hidle => ⟨?us, ?ms⟩
  case us =>
    exact acceptCommand_currentItems hidle rfl (encode_waitUs_append a b)
      (encode_waitUs_append a b ▸ decodeCmd_encode_of_wellFormed rfl rfl) rfl
  case ms =>
    exact acceptCommand_currentItems hidle rfl (encode_waitMs_append a b)
      (encode_waitMs_append a b ▸ decodeCmd_encode_of_wellFormed rfl rfl) rfl

/-- Settles O22. -/
theorem busyBlockTakesNoCommand : Obligations.BusyBlockTakesNoCommand :=
  fun _ _ hrun hi => exec_command_run hi hrun

/-- Settles O23: each range of the statement is where the range checks fail, and an in-contract
instruction is latched or, a frame, written. -/
theorem outOfContractOperandsAreRefused : Obligations.OutOfContractOperandsAreRefused := by
  refine fun s hidle => ⟨fun d p hout => ?digit, fun g p hout => ?glyph, fun i hwf => ?wellFormed⟩
  case digit =>
    refine exec_command_refused (i := .setDigit d p) rfl hidle ?_
    rw [← Bool.not_eq_true, Instr.wellFormed, Bool.and_eq_true, digitInContract_iff,
      positionInContract_iff]
    omega
  case glyph =>
    refine exec_command_refused (i := .setGlyph g p) rfl hidle ?_
    rw [← Bool.not_eq_true, Instr.wellFormed, positionInContract_iff]
    omega
  case wellFormed =>
    cases hi : i.format with
    | cmd24 => exact ⟨_, exec_command_wellFormed hi hidle hwf⟩
    | frame24 => exact ⟨_, exec_frame hi⟩

/-- Settles O24: a command that goes on has left the state as it was, or latched it with the mark. -/
theorem commandsChangeOnlyTheLatch : Obligations.CommandsChangeOnlyTheLatch := by
  intro i s t hi h
  obtain ⟨-, rfl⟩ | ⟨-, -, rfl⟩ := exec_command_next hi h
  · simp
  · simp +contextual [marksRun_eq_false]

/-- Settles O25: none of the nine addresses is that of the intensity register. -/
theorem digitFramesWriteTheirRegister : Obligations.DigitFramesWriteTheirRegister := by
  intro s o v
  refine ⟨?_, ?_, ?_, ?_, ?_, ?_, ?_, ?_, ?_⟩ <;> exact exec_frame_latched_of_ne rfl rfl (by decide)

/-- Settles O26: of the five addresses only that of the intensity register marks. -/
theorem controlFramesWriteTheirRegister : Obligations.ControlFramesWriteTheirRegister := by
  refine fun s o v => ⟨?_, ?_, ?_, ?_, ?intensity⟩
  case intensity => exact exec_frame_latched (i := .fIntensity o v) rfl rfl
  all_goals exact exec_frame_latched_of_ne rfl rfl (by decide)

/-- Settles O27: both are the latch of the window's address and value. -/
theorem frameMeaningAgreesWithImageRule : Obligations.FrameMeaningAgreesWithImageRule := by
  intro s o a v i h
  refine ⟨exec_of_decodeFrame h, _, exec_of_decodeFrame h, ?_⟩
  show (latchPair a v s).img = _
  rw [latchPair_eq]

/-- Settles O54: the block steps of each command's list. -/
theorem stepCountsOfTheCommands : Obligations.StepCountsOfTheCommands := by
  intro s t i hidle hi h
  obtain ⟨hrun, -⟩ | ⟨-, hwf, rfl⟩ := exec_command_next hi h
  · cases hidle.symm.trans hrun
  cases i with
  | setDigit d p =>
    obtain ⟨hd, hp⟩ := Bool.and_eq_true_iff.1 hwf
    obtain ⟨g, hg⟩ := exists_glyphOf_of_digitInContract hd
    exact (stepsLeft_latchCommand hi hwf (items_setDigit hp hg)).trans (listSteps_frame ..)
  | setGlyph g p =>
    exact (stepsLeft_latchCommand hi hwf (items_setGlyph hwf)).trans (listSteps_frame ..)
  | waitUs n => exact (stepsLeft_latchCommand hi hwf rfl).trans (listSteps_wait ..)
  | waitMs n => exact (stepsLeft_latchCommand hi hwf rfl).trans (listSteps_wait ..)
  | initDisp | clrDisp | setScan | setDecode | setShdn _ | setTest _ | setInt _ | selfTest =>
    exact (stepsLeft_latchCommand hi hwf rfl).trans rfl
  | _ => cases hi

end Sys2Proof.Machine
end

section
/-! PROOFS. One step of the machine as a relation: which turn it is, and everything that turn can do,
said once in both directions. -/

namespace Sys2Proof.Machine

variable {s t : State} {i : Instr} {m : Move} {o a v : Byte}

/-! ### The step by the turn it is (10_state.md R23, R24, R26) -/

/-- A turn of another agent than the block. -/
theorem step_of_ne_block (hm : nextMove s ≠ .block) :
    step s = runMove (nextMove s) (takeMove s) := by
  cases h : nextMove s with
  | block => exact absurd h hm
  | _ => simp [step, fetch, h]

section BlockTurn

variable (hm : nextMove s = .block)
include hm

theorem step_idle_of_no_offer (hidle : s.block.phase = .idle) (hvalid : s.port.valid = false) :
    step s = .next (takeMove s) := by
  simp [step, fetch, hm, hidle, hvalid, runMove, stepBlock, hold]

theorem step_idle_of_offer (hidle : s.block.phase = .idle) (hvalid : s.port.valid = true) :
    step s = match decodeCmd s.port.word with
      | .command i => exec i (withdrawOffer (takeMove s))
      | .reserved => .refused (.reservedWord s.port.word)
      | .outOfContract i => .refused (.outOfContract i.mnemonic) := by
  cases hd : decodeCmd s.port.word <;> simp [step, fetch, hm, hidle, hvalid, fetchCommand, hd]

/-- An offered command is latched, the offer withdrawn and, for SETINT, the mark set. -/
theorem step_idle_of_command (hidle : s.block.phase = .idle) (hvalid : s.port.valid = true)
    (hd : decodeCmd s.port.word = .command i) :
    step s = .next (latchCommand s.port.word
      { withdrawOffer (takeMove s) with intMark := s.intMark || marksRun i }) := by
  obtain ⟨henc, hi, hwf⟩ := encode_of_decodeCmd_eq_command hd
  rw [step_idle_of_offer hm hidle hvalid, hd]
  simpa [henc] using exec_command_wellFormed (s := withdrawOffer (takeMove s)) hi (by simpa) hwf

/-- At T8 with a frame of the register map on the wire the step is that frame's exec. -/
theorem step_t8_of_frame {bs : List Byte} (hrun : s.block.phase = .run) (hms : s.block.ms = .t8)
    (hw : openWindow s.trace = some bs) (hd : decodeWindow bs = .frame i) :
    step s = exec i (deselect (takeMove s)) := by
  simp [step, fetch, hm, hrun, hms, hw, fetchFrame, hd]

/-- The block's turn of a running command is the micro-step `MS` names, at T8 too: the frame on the wire
is the slave's latch of the window. -/
theorem step_run (hrun : s.block.phase = .run) : step s = microStep (takeMove s) := by
  by_cases hms : s.block.ms = .t8
  · have hmicro : microStep (takeMove s) = stepT8 (takeMove s) := by simp [microStep, hms]
    cases hw : openWindow s.trace with
    | none => simp [step, fetch, hm, hrun, hms, hw, fetchFrame, runMove, stepBlock]
    | some bs =>
      cases hd : decodeWindow bs with
      | frame i =>
        rw [step_t8_of_frame hm hrun hms hw hd, exec_of_decodeWindow hd, hmicro, stepT8,
          takeMove_trace, hw]
      | _ => simp [step, fetch, hm, hrun, hms, hw, fetchFrame, hd, runMove, stepBlock]
  · exact step_eq_microStep_of_blockAt ⟨hm, hrun, rfl⟩ hms

end BlockTurn

/-! ### The enabled micro-steps (10_state.md R27) -/

/-- What each enabled micro-step does, one constructor per row of R27; FETCH has two, the end of the
list and an item. -/
inductive MicroTurn (s : State) : State → Prop
  | finish {l : List Item} (hms : s.block.ms = .fetch) (hl : currentItems s = some l)
      (hfi : s.block.fi = l.length) : MicroTurn s (finishCommand s)
  | load {l : List Item} {it : Item} (hms : s.block.ms = .fetch) (hl : currentItems s = some l)
      (hit : l[s.block.fi]? = some it) : MicroTurn s (loadItem it s)
  | t1 (hms : s.block.ms = .t1) (hsel : s.bus.sel = false) : MicroTurn s (setMs .t2 s)
  | t2 (hms : s.block.ms = .t2) :
      MicroTurn s (emit .irqOff (setMs .t3 { s with bus.irqEn := false }))
  | t3 (hms : s.block.ms = .t3) :
      MicroTurn s (emit .selLow (setMs .t4 { s with bus.sel := true, block.bi := 0 }))
  | t4 {b : Byte} (hms : s.block.ms = .t4) (hspace : txNf s = true)
      (hb : frameByte s s.block.bi = some b) :
      MicroTurn s (setMs (if s.block.bi + 1 ≤ Config.size then .t4 else .t5a)
        { s with bus.txq := s.bus.txq ++ [b], block.bi := s.block.bi + 1 })
  | t5a (hms : s.block.ms = .t5a) (htxq : s.bus.txq = []) : MicroTurn s (setMs .t5b s)
  | t5b (hms : s.block.ms = .t5b) (hshift : s.bus.shift = none) : MicroTurn s (setMs .t6 s)
  | t6 (hms : s.block.ms = .t6) : MicroTurn s (emit .tcClr (setMs .t7t { s with bus.tc := false }))
  | t7t (hms : s.block.ms = .t7t) :
      MicroTurn s (emit .rxFlush (setMs .t7w { s with bus.rfl := true }))
  | t7w (hms : s.block.ms = .t7w) (hrfl : s.bus.rfl = false) : MicroTurn s (setMs .t8 s)
  | t8 (hms : s.block.ms = .t8) : MicroTurn s (latchWindow (openWindow s.trace) (deselect s))
  | t9 (hms : s.block.ms = .t9) : MicroTurn s (emit .irqOn (endItem { s with bus.irqEn := true }))
  | wl (hms : s.block.ms = .wl) :
      MicroTurn s (setMs .wc
        { s with timer.rlh := reloadHi s.block.u, timer.rll := reloadLo s.block.u })
  | wc (hms : s.block.ms = .wc) : MicroTurn s (setMs .ws { s with timer.ovf := false })
  | ws (hms : s.block.ms = .ws) : MicroTurn s (setMs .wo { s with timer.run := true })
  | wo (hms : s.block.ms = .wo) (hovf : s.timer.ovf = true) (hdn : s.block.dn ≠ 0) :
      MicroTurn s (emit (.tick s.block.u) (setMs (if s.block.dn - 1 = 0 then .wx else .wl)
        { s with block.dn := s.block.dn - 1 }))
  | wx (hms : s.block.ms = .wx) :
      MicroTurn s (emit (.tmrStop s.block.u) (endItem { s with timer.run := false }))

theorem MicroTurn.microEnabled (h : MicroTurn s t) : microEnabled s = true := by
  cases h <;> simp_all [Machine.microEnabled, txCnt, sBusy]

/-- An enabled micro-step that goes on is one of the rows. -/
theorem microTurn_of_microStep (h : microStep s = .next t) (hen : microEnabled s = true) :
    MicroTurn s t := by
  unfold microStep at h
  unfold microEnabled at hen
  cases hms : s.block.ms <;> simp only [hms] at h hen
  case fetch =>
    obtain ⟨l, hl, ⟨hfi, rfl⟩ | ⟨it, hit, rfl⟩⟩ := stepFetch_next h
    · exact .finish hms hl hfi
    · exact .load hms hl hit
  case t1 =>
    obtain ⟨hsel, -⟩ | ⟨hsel, rfl⟩ := stepT1_next h
    · simp [hsel] at hen
    · exact .t1 hms hsel
  case t4 =>
    obtain ⟨hspace, -⟩ | ⟨b, hspace, hb, rfl⟩ := stepT4_next h
    · simp [hspace] at hen
    · exact .t4 hms hspace hb
  case t5a =>
    obtain ⟨htxq, -⟩ | ⟨htxq, rfl⟩ := stepT5A_next h
    · simp [txCnt, htxq] at hen
    · exact .t5a hms htxq
  case t5b =>
    obtain ⟨hshift, -⟩ | ⟨hshift, rfl⟩ := stepT5B_next h
    · simp [sBusy, hshift] at hen
    · exact .t5b hms hshift
  case t7w =>
    obtain ⟨hrfl, -⟩ | ⟨hrfl, rfl⟩ := stepT7W_next h
    · simp [hrfl] at hen
    · exact .t7w hms hrfl
  case wo =>
    obtain ⟨hovf, -⟩ | ⟨hovf, hdn, rfl⟩ := stepWO_next h
    · simp [hovf] at hen
    · exact .wo hms hovf hdn
  case t2 => cases h; exact .t2 hms
  case t3 => cases h; exact .t3 hms
  case t6 => cases h; exact .t6 hms
  case t7t => cases h; exact .t7t hms
  case t8 => cases h; exact .t8 hms
  case t9 => cases h; exact .t9 hms
  case wl => cases h; exact .wl hms
  case wc => cases h; exact .wc hms
  case ws => cases h; exact .ws hms
  case wx => cases h; exact .wx hms

/-- Each row is what `microStep` answers. -/
theorem MicroTurn.microStep_eq (h : MicroTurn s t) : microStep s = .next t := by
  cases h with
  | finish hms hl hfi => simp [microStep, hms, stepFetch, hl, hfi]
  | load hms hl hit =>
    have hne := (List.getElem?_eq_some_iff.1 hit).1.ne
    simp [microStep, hms, stepFetch, hl, hne, hit]
  | t1 hms hsel => simp [microStep, hms, stepT1, hsel]
  | t4 hms hspace hb => simp [microStep, hms, stepT4, hspace, hb]
  | t5a hms htxq => simp [microStep, hms, stepT5A, txCnt, htxq]
  | t5b hms hshift => simp [microStep, hms, stepT5B, sBusy, hshift]
  | t7w hms hrfl => simp [microStep, hms, stepT7W, hrfl]
  | wo hms hovf hdn => simpa [microStep, hms, stepWO, hovf] using hdn
  | t2 hms | t3 hms | t6 hms | t7t hms | t8 hms | t9 hms | wl hms | wc hms | ws hms | wx hms =>
    rw [microStep, hms]
    rfl

/-- A micro-step that is not enabled holds (20_memory.md R84). -/
theorem microStep_of_not_microEnabled (h : microEnabled s = false) : microStep s = .next s := by
  unfold microEnabled at h
  unfold microStep
  cases hms : s.block.ms <;> simp only [hms] at h ⊢
  case t1 => simp_all [stepT1, hold]
  case t4 => simp_all [stepT4, hold]
  case t5a => simp_all [stepT5A, hold]
  case t5b => simp_all [stepT5B, hold]
  case t7w => simp_all [stepT7W, hold]
  case wo => simp_all [stepWO, hold]
  all_goals cases h

theorem microStep_eq_next_iff :
    microStep s = .next t ↔ (microEnabled s = false ∧ t = s) ∨ MicroTurn s t := by
  refine ⟨fun h => ?_, ?_⟩
  · cases hen : microEnabled s with
    | false =>
      rw [microStep_of_not_microEnabled hen] at h
      cases h
      exact .inl ⟨rfl, rfl⟩
    | true => exact .inr (microTurn_of_microStep h hen)
  · rintro (⟨hen, rfl⟩ | h)
    · exact microStep_of_not_microEnabled hen
    · exact h.microStep_eq

/-! ### The turns of all agents -/

/-- What a turn `m` of the machine does, from the state whose schedule has moved on: nothing, if it is
not enabled (log 2), or the enabled step of its agent. -/
inductive Turn (s : State) : Move → State → Prop
  | hold {m : Move} (h : moveEnabled m s = false) : Turn s m s
  | accept {i : Instr} (hidle : s.block.phase = .idle) (hvalid : s.port.valid = true)
      (hd : decodeCmd s.port.word = .command i) :
      Turn s .block (latchCommand s.port.word
        { withdrawOffer s with intMark := s.intMark || marksRun i })
  | micro {t : State} (hrun : s.block.phase = .run) (h : MicroTurn s t) : Turn s .block t
  | host {w : Word24} {rest : List Word24} (hvalid : s.port.valid = false)
      (hprog : s.program = w :: rest) :
      Turn s .host { s with port.valid := true, port.word := w, program := rest }
  | pe1 {b : Byte} {rest : List Byte} (hshift : s.bus.shift = none) (htxq : s.bus.txq = b :: rest) :
      Turn s .pe1 { s with bus.shift := some b, bus.txq := rest }
  | pe2 {b : Byte} (hshift : s.bus.shift = some b) :
      Turn s .pe2 (emit (.byte b) { s with
        bus.shift := none
        bus.tc := true
        bus.rxq := s.bus.rxq ++ [Config.freeByte s.rxDraws]
        rxDraws := s.rxDraws + 1 })
  | pe3 (hrfl : s.bus.rfl = true) : Turn s .pe3 { s with bus.rxq := [], bus.rfl := false }
  | te1 (hrun : s.timer.run = true) (hovf : s.timer.ovf = false) :
      Turn s .te1 { s with timer.ovf := true }

/-- Taking a turn from the schedule enables and disables nothing. -/
@[simp] theorem moveEnabled_takeMove (m : Move) (s : State) :
    moveEnabled m (takeMove s) = moveEnabled m s := by
  unfold takeMove
  split <;> rfl

/-- The turn of another agent than the block that is not enabled. -/
theorem runMove_of_not_moveEnabled (hm : m ≠ .block) (h : moveEnabled m s = false) :
    runMove m s = .next s := by
  cases m with
  | block => exact absurd rfl hm
  | host =>
    obtain ⟨w, rest, hvalid, hprog, -⟩ | hstep := stepHost_cases s
    · simp [moveEnabled, hvalid, hprog] at h
    · rw [runMove, hstep]
  | pe1 =>
    obtain ⟨b, rest, hshift, htxq, -⟩ | hstep := stepPE1_cases s
    · simp [moveEnabled, hshift, htxq] at h
    · rw [runMove, hstep]
  | pe2 =>
    obtain ⟨b, hshift, -⟩ | ⟨-, hstep⟩ := stepPE2_cases s
    · simp [moveEnabled, hshift] at h
    · rw [runMove, hstep]
  | pe3 =>
    obtain ⟨hrfl, -⟩ | ⟨-, hstep⟩ := stepPE3_cases s
    · exact Bool.noConfusion (h.symm.trans hrfl)
    · rw [runMove, hstep]
  | te1 =>
    obtain ⟨hrun, hovf, -⟩ | hstep := stepTE1_cases s
    · simp [moveEnabled, hrun, hovf] at h
    · rw [runMove, hstep]

/-- A turn that is not enabled changes nothing but the schedule. -/
theorem step_of_not_moveEnabled (h : moveEnabled (nextMove s) s = false) :
    step s = .next (takeMove s) := by
  by_cases hm : nextMove s = .block
  · rw [hm] at h
    cases hphase : s.block.phase with
    | idle =>
      exact step_idle_of_no_offer hm hphase (by simpa [moveEnabled, blockEnabled, hphase] using h)
    | run =>
      rw [step_run hm hphase]
      rw [← moveEnabled_takeMove] at h
      exact microStep_of_not_microEnabled (by simpa [moveEnabled, blockEnabled, hphase] using h)
  · rw [step_of_ne_block hm]
    exact runMove_of_not_moveEnabled hm (by simpa using h)

/-- Each turn is what the step answers whose turn it is. -/
theorem Turn.step_eq (h : Turn (takeMove s) (nextMove s) t) : step s = .next t := by
  generalize hm : nextMove s = m at h
  cases h with
  | hold h => exact step_of_not_moveEnabled (by simpa [hm] using h)
  | accept hidle hvalid hd =>
    simp only [takeMove_block, takeMove_port] at hidle hvalid hd
    simpa using step_idle_of_command hm hidle hvalid hd
  | micro hrun h => rw [step_run hm (by simpa using hrun), h.microStep_eq]
  | host hvalid hprog => rw [step_of_ne_block (by simp [hm]), hm, runMove, stepHost, hvalid, hprog]
  | pe1 hshift htxq => rw [step_of_ne_block (by simp [hm]), hm, runMove, stepPE1, hshift, htxq]
  | pe2 hshift => rw [step_of_ne_block (by simp [hm]), hm, runMove, stepPE2, hshift]
  | pe3 hrfl => rw [step_of_ne_block (by simp [hm]), hm, runMove, stepPE3, if_pos hrfl]
  | te1 hrun hovf =>
    rw [step_of_ne_block (by simp [hm]), hm, runMove, stepTE1, hrun, hovf]
    rfl

/-- Another agent than the block always has its turn. -/
theorem exists_turn_of_ne_block (hm : m ≠ .block) (s : State) : ∃ t, Turn s m t := by
  cases hen : moveEnabled m s with
  | false => exact ⟨s, .hold hen⟩
  | true =>
    cases m with
    | block => exact absurd rfl hm
    | host =>
      simp only [moveEnabled, Bool.and_eq_true, Bool.not_eq_true', List.isEmpty_eq_false_iff] at hen
      obtain ⟨w, rest, hprog⟩ := List.exists_cons_of_ne_nil hen.2
      exact ⟨_, .host hen.1 hprog⟩
    | pe1 =>
      simp only [moveEnabled, Bool.and_eq_true, Option.isNone_iff_eq_none, Bool.not_eq_true',
        List.isEmpty_eq_false_iff] at hen
      obtain ⟨b, rest, htxq⟩ := List.exists_cons_of_ne_nil hen.2
      exact ⟨_, .pe1 hen.1 htxq⟩
    | pe2 =>
      obtain ⟨b, hshift⟩ := Option.isSome_iff_exists.1 hen
      exact ⟨_, .pe2 hshift⟩
    | pe3 => exact ⟨_, .pe3 hen⟩
    | te1 =>
      simp only [moveEnabled, Bool.and_eq_true, Bool.not_eq_true'] at hen
      exact ⟨_, .te1 hen.1 hen.2⟩

/-- The inversion of `step`: a step that goes on is the turn whose move is next. -/
theorem turn_of_step (h : step s = .next t) : Turn (takeMove s) (nextMove s) t := by
  by_cases hm : nextMove s = .block
  · rw [hm]
    cases hphase : s.block.phase with
    | idle =>
      cases hvalid : s.port.valid with
      | false =>
        rw [step_idle_of_no_offer hm hphase hvalid] at h
        cases h
        exact .hold (by simp [moveEnabled, blockEnabled, hphase, hvalid])
      | true =>
        cases hd : decodeCmd s.port.word with
        | command i =>
          rw [step_idle_of_command hm hphase hvalid hd] at h
          cases h
          simpa using Turn.accept (s := takeMove s) (by simpa) (by simpa) (by simpa using hd)
        | _ => rw [step_idle_of_offer hm hphase hvalid, hd] at h; cases h
    | run =>
      rw [step_run hm hphase, microStep_eq_next_iff] at h
      obtain ⟨hen, rfl⟩ | h := h
      · exact .hold (by simpa [moveEnabled, blockEnabled, hphase] using hen)
      · exact .micro (by simpa) h
  · obtain ⟨t', ht'⟩ := exists_turn_of_ne_block hm (takeMove s)
    cases h.symm.trans ht'.step_eq
    exact ht'

end Sys2Proof.Machine
end

section
/-! PROOFS. The statements about one step: which meaning it runs, each micro-step of a transfer and of a
wait, FETCH, and the steps of the environment. -/

namespace Sys2Proof.Machine

variable {s t : State} {m : MicroStep} {l : List Item}

/-! ### A step runs the decoded instruction (10_state.md R24; 20_memory.md R67) -/

/-- Settles O1: the verdict on the offered word decides. -/
theorem stepRunsTheOfferedCommand : Obligations.StepRunsTheOfferedCommand := by
  intro s hm hidle hvalid
  refine ⟨fun i hd => ?_, fun hd => ?_, fun i hd => ?_⟩
  · obtain ⟨-, -, hwf⟩ := encode_of_decodeCmd_eq_command hd
    exact ⟨hwf, by rw [step_idle_of_offer hm hidle hvalid, hd]⟩
  · rw [step_idle_of_offer hm hidle hvalid, hd]
  · rw [step_idle_of_offer hm hidle hvalid, hd]

/-- Settles O2: the block's own T8 writes are those of `deselect`. -/
theorem stepRunsTheFrameOnTheWire : Obligations.StepRunsTheFrameOnTheWire := by
  intro s o a v i h hw hd
  obtain ⟨hm, hrun, hms⟩ := h
  exact step_t8_of_frame hm hrun hms hw hd

/-! ### The block's turn at a micro-step -/

theorem BlockAt.step_eq (h : BlockAt m s) : step s = microStep (takeMove s) :=
  step_run h.1 h.2.1

/-- On its turn an enabled block takes its row of R27. -/
theorem BlockAt.step_of_microTurn (h : BlockAt m s) (ht : MicroTurn (takeMove s) t) :
    step s = .next t := h.step_eq.trans ht.microStep_eq

theorem BlockAt.step_hold (h : BlockAt m s) (hen : microEnabled (takeMove s) = false) :
    step s = .next (takeMove s) := h.step_eq.trans (microStep_of_not_microEnabled hen)

theorem BlockAt.takeMove_ms (h : BlockAt m s) : (takeMove s).block.ms = m := by
  rw [takeMove_block, h.ms_eq]

/-- Settles O28. -/
theorem t1WaitsForTheBus : Obligations.T1WaitsForTheBus := by
  intro s h
  simp [h.step_eq, microStep, h.ms_eq, stepT1, hold]

/-- Settles O30: one bus write, one event, `BI` and the next micro-step. -/
theorem t3SelectsTheSlave : Obligations.T3SelectsTheSlave := by
  intro s h
  rw [h.step_of_microTurn (.t3 h.takeMove_ms)]
  simp [emit, setMs]

/-- Settles O31: the byte is the frame's at `BI`, and the third one ends the enqueuing. -/
theorem t4EnqueuesTheFrame : Obligations.T4EnqueuesTheFrame := by
  intro s b m h hbyte
  have hframe : frameByte (takeMove s) (takeMove s).block.bi = some b := by
    obtain ⟨hbi, rfl, -⟩ | ⟨hbi, rfl, -⟩ | ⟨hbi, rfl, -⟩ := hbyte <;> simp [frameByte, hbi]
  have hnext : (if s.block.bi + 1 ≤ Config.size then MicroStep.t4 else .t5a) = m := by
    obtain ⟨hbi, -, rfl⟩ | ⟨hbi, -, rfl⟩ | ⟨hbi, -, rfl⟩ := hbyte <;> simp [Config.size, hbi]
  split
  · next hspace =>
    rw [h.step_of_microTurn (.t4 h.takeMove_ms (by simpa [txNf] using hspace) hframe)]
    simp only [setMs, takeMove_block, takeMove_bus, hnext]
  · next hfull =>
    exact h.step_hold (by simpa [microEnabled, h.ms_eq, txNf] using hfull)

/-- Settles O32. -/
theorem t5WaitsForTheLastBit : Obligations.T5WaitsForTheLastBit := by
  refine fun s => ⟨fun h => ?fifo, fun h => ?shifter⟩
  case fifo => simp [h.step_eq, microStep, h.ms_eq, stepT5A, txCnt, hold]
  case shifter =>
    cases hshift : s.bus.shift <;>
      simp [h.step_eq, microStep, h.ms_eq, stepT5B, sBusy, hold, hshift]

/-- Settles O36: T9 writes the interrupt enable without reading it. -/
theorem t9ReleasesTheBus : Obligations.T9ReleasesTheBus := by
  intro s h
  rw [h.step_of_microTurn (.t9 h.takeMove_ms)]
  simp [emit, endItem]

/-- Settles O37: the three set-up micro-steps are always enabled. -/
theorem waitIterationStartsTheCounter : Obligations.WaitIterationStartsTheCounter := by
  refine fun s => ⟨fun h => ?wl, fun h => ?wc, fun h => ?ws⟩
  case wl =>
    rw [h.step_of_microTurn (.wl h.takeMove_ms)]
    simp [setMs, reloadHi, reloadLo]
  case wc =>
    rw [h.step_of_microTurn (.wc h.takeMove_ms)]
    simp [setMs]
  case ws =>
    rw [h.step_of_microTurn (.ws h.takeMove_ms)]
    simp [setMs]

theorem Word16.sub_one_eq_zero_iff (n : Word16) : n - 1 = 0 ↔ n.toNat = 1 := by
  bv_omega

/-- Settles O38: WO holds or takes the one iteration off, WX always goes on. -/
theorem waitOverflowCountsAndStops : Obligations.WaitOverflowCountsAndStops := by
  refine fun s => ⟨fun h hdn => ?wo, fun h => ?wx⟩
  case wo =>
    split
    · next hovf =>
      have hne : s.block.dn ≠ 0 := by
        intro h0
        simp [h0] at hdn
      rw [h.step_of_microTurn (.wo h.takeMove_ms (by simpa using hovf) (by simpa using hne))]
      simp only [emit, setMs, takeMove_block, takeMove_trace, Word16.sub_one_eq_zero_iff]
    · next hovf => exact h.step_hold (by simpa [microEnabled, h.ms_eq] using hovf)
  case wx =>
    rw [h.step_of_microTurn (.wx h.takeMove_ms)]
    simp [emit, endItem]

theorem currentItems_takeMove (s : State) : currentItems (takeMove s) = currentItems s := by
  rw [currentItems, latchedWord, takeMove_block]
  rfl

/-- Settles O39: the end of the list, or the item at `FI`. -/
theorem fetchLoadsTheItem : Obligations.FetchLoadsTheItem := by
  intro s l h hl
  rw [← currentItems_takeMove] at hl
  refine ⟨fun hfi => ?finish, fun a v hit => ?frame, fun u n hit => ?wait⟩
  case finish =>
    rw [h.step_of_microTurn (.finish h.takeMove_ms hl (by simpa))]
    simp [finishCommand, emit]
  case frame =>
    rw [h.step_of_microTurn (.load h.takeMove_ms hl (by simpa))]
    simp [loadItem, setMs]
  case wait =>
    rw [h.step_of_microTurn (.load h.takeMove_ms hl (by simpa))]
    simp [loadItem, setMs]

/-! ### T8 and the slave's latch (20_memory.md R67, R86) -/

/-- What the slave's latch of a window can change: the image and the mark. -/
theorem latchWindow_eq (w : Option (List Byte)) (s : State) :
    latchWindow w s =
      { s with img := (latchWindow w s).img, intMark := (latchWindow w s).intMark } := by
  unfold latchWindow
  split
  · split
    · rw [latchPair_eq]
    · rfl
  · rfl

section LatchWindow

variable (w : Option (List Byte)) (s : State)

@[simp] theorem latchWindow_block : (latchWindow w s).block = s.block := by rw [latchWindow_eq]
@[simp] theorem latchWindow_bus : (latchWindow w s).bus = s.bus := by rw [latchWindow_eq]
@[simp] theorem latchWindow_timer : (latchWindow w s).timer = s.timer := by rw [latchWindow_eq]
@[simp] theorem latchWindow_port : (latchWindow w s).port = s.port := by rw [latchWindow_eq]
@[simp] theorem latchWindow_program : (latchWindow w s).program = s.program := by
  rw [latchWindow_eq]
@[simp] theorem latchWindow_trace : (latchWindow w s).trace = s.trace := by rw [latchWindow_eq]
@[simp] theorem latchWindow_rxDraws : (latchWindow w s).rxDraws = s.rxDraws := by
  rw [latchWindow_eq]

end LatchWindow

/-- The slave's latch of a window is the image update of R86. -/
theorem latchWindow_img (w : Option (List Byte)) (s : State) :
    (latchWindow w s).img = w.elim s.img (imageStep s.img) := by
  cases w with
  | none => rfl
  | some bs =>
    simp only [latchWindow, Option.elim_some, imageStep]
    split
    · rw [latchPair_eq]
    · rfl

theorem scanWindows_concat (tr : List Event) (e : Event) :
    scanWindows (tr ++ [e]) = (scanWindows tr).next e := by
  simp [scanWindows]

/-- SEL_HIGH adds the window it closes to the image. -/
theorem imageOf_concat_selHigh (tr : List Event) :
    imageOf (tr ++ [.selHigh]) = (openWindow tr).elim (imageOf tr) (imageStep (imageOf tr)) := by
  rw [imageOf, windows, scanWindows_concat, openWindow]
  cases hw : (scanWindows tr).window <;> simp [WindowScan.next, hw, imageOf, windows]

/-- Every other event leaves the windows, and so the image, as they are. -/
theorem imageOf_concat_of_ne {e : Event} (he : e ≠ .selHigh) (tr : List Event) :
    imageOf (tr ++ [e]) = imageOf tr := by
  rw [imageOf, windows, scanWindows_concat]
  cases e with
  | selHigh => exact absurd rfl he
  | byte b => cases hw : (scanWindows tr).window <;> simp [WindowScan.next, hw, imageOf, windows]
  | _ => rfl

/-- Settles O35: at T8 the slave's latch and the image of the longer trace are one update. -/
theorem t8DeselectsAndTheSlaveLatches : Obligations.T8DeselectsAndTheSlaveLatches := by
  intro s h
  refine ⟨_, h.step_of_microTurn (.t8 h.takeMove_ms), ?_⟩
  refine ⟨by simp, by simp, by simp, by simp, by simp, by simp, by simp, fun himg => ?_⟩
  rw [latchWindow_img, imageOf_concat_selHigh, ← himg]
  simp

/-! ### The environment and the port (20_memory.md R81 to R83; 60_exceptions.md R262) -/

theorem takeMove_with_bus (s : State) : { takeMove s with bus := s.bus } = takeMove s := by
  rw [← takeMove_bus s]

theorem takeMove_with_timer (s : State) : { takeMove s with timer := s.timer } = takeMove s := by
  rw [← takeMove_timer s]

/-- Settles O40: each agent's turn is its own step. -/
theorem busPeripheralAndTimerSteps : Obligations.BusPeripheralAndTimerSteps := by
  intro s
  refine ⟨fun hm => ?pe1, fun hm b hshift => ?pe2, fun hm hshift => ?pe2None, fun hm => ?pe3,
    fun hm => ?te1⟩ <;> rw [step_of_ne_block (by simp [hm]), hm, runMove]
  case pe1 =>
    have hsame : (Host.Outcome.next (takeMove s) : Result) = .next { takeMove s with bus := s.bus } :=
      congrArg Host.Outcome.next (takeMove_with_bus s).symm
    rw [stepPE1, takeMove_bus]
    cases hshift : s.bus.shift with
    | some _ => exact hsame
    | none =>
      cases htxq : s.bus.txq with
      | nil => exact hsame
      | cons b rest => rfl
  case pe2 => exact ⟨Config.freeByte s.rxDraws, by simp [stepPE2, hshift, emit]⟩
  case pe2None => simp [stepPE2, hshift]
  case pe3 =>
    rw [stepPE3, takeMove_bus]
    split
    · rfl
    · rw [takeMove_with_bus]
  case te1 =>
    rw [stepTE1, takeMove_timer]
    simp only [Bool.and_eq_true, Bool.not_eq_true']
    split
    · rfl
    · rw [takeMove_with_timer]

end Sys2Proof.Machine
end

section
/-! PROOFS. The rules of the whole machine that need no invariant: the port, the schedule, the trace, the
owners of the cells, the latch of a running command. -/

namespace Sys2Proof.Machine

variable {s t : State} {m : Move}

/-! ### What FETCH's load can change (44_sequencer.md R216) -/

section LoadItem

variable (it : Item) (s : State)

@[simp] theorem loadItem_bus : (loadItem it s).bus = s.bus := by cases it <;> rfl
@[simp] theorem loadItem_timer : (loadItem it s).timer = s.timer := by cases it <;> rfl
@[simp] theorem loadItem_port : (loadItem it s).port = s.port := by cases it <;> rfl
@[simp] theorem loadItem_img : (loadItem it s).img = s.img := by cases it <;> rfl
@[simp] theorem loadItem_trace : (loadItem it s).trace = s.trace := by cases it <;> rfl
@[simp] theorem loadItem_intMark : (loadItem it s).intMark = s.intMark := by cases it <;> rfl
@[simp] theorem loadItem_phase : (loadItem it s).block.phase = s.block.phase := by cases it <;> rfl
@[simp] theorem loadItem_op : (loadItem it s).block.op = s.block.op := by cases it <;> rfl
@[simp] theorem loadItem_a : (loadItem it s).block.a = s.block.a := by cases it <;> rfl
@[simp] theorem loadItem_b : (loadItem it s).block.b = s.block.b := by cases it <;> rfl
@[simp] theorem loadItem_fi : (loadItem it s).block.fi = s.block.fi := by cases it <;> rfl

end LoadItem

/-! ### What a micro-step leaves as it was -/

/-- No micro-step touches the port or the latch (10_state.md R21, R24). -/
theorem MicroTurn.port_eq (h : MicroTurn s t) : t.port = s.port := by
  cases h <;> simp

theorem MicroTurn.latch_eq (h : MicroTurn s t) :
    t.block.op = s.block.op ∧ t.block.a = s.block.a ∧ t.block.b = s.block.b := by
  cases h <;> simp

/-- Only FETCH at the end of the list ends the command (10_state.md R23). -/
theorem MicroTurn.phase_eq_or_finish (h : MicroTurn s t) :
    t.block.phase = s.block.phase ∨
      s.block.ms = .fetch ∧ (∃ l, currentItems s = some l ∧ s.block.fi = l.length) ∧
        t = finishCommand s := by
  cases h with
  | finish hms hl hfi => exact .inr ⟨hms, ⟨_, hl, hfi⟩, rfl⟩
  | _ => exact .inl (by simp)

/-- A micro-step leaves one event at most, and no BYTE (00_scope.md R12). -/
theorem MicroTurn.trace_eq (h : MicroTurn s t) :
    t.trace = s.trace ∨ ∃ e, (∀ b, e ≠ .byte b) ∧ t.trace = s.trace ++ [e] := by
  cases h with
  | load | t1 | t4 | t5a | t5b | t7w | wl | wc | ws => exact .inl (by simp)
  | finish => exact .inr ⟨.cmdDone, by simp, by simp⟩
  | t2 => exact .inr ⟨.irqOff, by simp, by simp⟩
  | t3 => exact .inr ⟨.selLow, by simp, by simp⟩
  | t6 => exact .inr ⟨.tcClr, by simp, by simp⟩
  | t7t => exact .inr ⟨.rxFlush, by simp, by simp⟩
  | t8 => exact .inr ⟨.selHigh, by simp, by simp⟩
  | t9 => exact .inr ⟨.irqOn, by simp, by simp⟩
  | wo => exact .inr ⟨.tick s.block.u, by simp, by simp⟩
  | wx => exact .inr ⟨.tmrStop s.block.u, by simp, by simp⟩

/-- The micro-steps of a wait touch no bus cell and no slave register (10_state.md R45). -/
theorem MicroTurn.bus_eq_of_wait (h : MicroTurn s t)
    (hms : s.block.ms ∈ [MicroStep.wl, .wc, .ws, .wo, .wx]) : t.bus = s.bus ∧ t.img = s.img := by
  cases h <;> simp_all

/-- FETCH and the micro-steps of a transfer touch no timer cell (10_state.md R45). -/
theorem MicroTurn.timer_eq_of_transfer (h : MicroTurn s t)
    (hms : s.block.ms ∉ [MicroStep.wl, .wc, .ws, .wo, .wx]) : t.timer = s.timer := by
  cases h <;> simp_all

/-! ### The statements -/

/-- Settles O41: the host's turn, and the one turn that changes a standing offer, which takes it. -/
theorem hostOffersOneWordAtATime : Obligations.HostOffersOneWordAtATime := by
  refine ⟨fun s w rest hm hvalid hprog => ?offer, fun s t hvalid h => ?stands⟩
  case offer =>
    exact Turn.step_eq (hm ▸ .host (by simpa using hvalid) (by simpa using hprog))
  case stands =>
    have h := turn_of_step h
    generalize hm : nextMove s = m at h
    cases h with
    | accept hidle _ hd =>
      exact .inr ⟨rfl, by simpa using hidle, rfl, rfl, by
        rw [latchedWord_latchCommand, mkWord_fields, takeMove_port]⟩
    | micro _ h => exact .inl (by simpa using h.port_eq)
    | host hfalse _ => simp [hvalid] at hfalse
    | _ => exact .inl (by simp)

/-- Settles O42. -/
theorem turnsThatAreNotEnabledChangeNothing : Obligations.TurnsThatAreNotEnabledChangeNothing :=
  fun _ => step_of_not_moveEnabled

/-- Settles O43: turn by turn, what is appended. -/
theorem traceIsOnlyAppendedTo : Obligations.TraceIsOnlyAppendedTo := by
  intro s t h
  have h := turn_of_step h
  generalize hm : nextMove s = m at h
  cases h with
  | accept => exact .inr (.inr ⟨rfl, .cmdAccept s.port.word, by simp, by simp⟩)
  | micro _ h =>
    obtain h | ⟨e, he, h⟩ := h.trace_eq
    · exact .inl (by simpa using h)
    · exact .inr (.inr ⟨rfl, e, he, by simpa using h⟩)
  | @pe2 b => exact .inr (.inl ⟨rfl, b, by simp⟩)
  | _ => exact .inl (by simp)

/-- Settles O44: each agent's turn writes its own cells. -/
theorem cellsHaveOneOwner : Obligations.CellsHaveOneOwner := by
  intro s t h
  have h := turn_of_step h
  generalize hm : nextMove s = m at h
  cases h with
  | hold => simp
  | accept hidle => simp_all [Move.agent]
  | micro hrun h =>
    refine ⟨by simp, by simp, by simp [Move.agent], fun _ _ hms => ?_, fun _ _ hms => ?_⟩
    · simpa using h.bus_eq_of_wait (by simpa using hms)
    · simpa using h.timer_eq_of_transfer (by simpa using hms)
  | host | pe1 | pe2 | pe3 | te1 => simp [Move.agent]

/-- Settles O45: no turn of a running command writes the latch, and one alone leaves RUN. -/
theorem commandsRunToTheirEnd : Obligations.CommandsRunToTheirEnd := by
  intro s t hrun h
  have h := turn_of_step h
  generalize hm : nextMove s = m at h
  cases h with
  | accept hidle => simp [hrun] at hidle
  | micro _ h =>
    obtain ⟨hop, ha, hb⟩ := h.latch_eq
    refine ⟨by simpa using hop, by simpa using ha, by simpa using hb, fun hidle => ?_⟩
    obtain hphase | ⟨hms, ⟨l, hl, hfi⟩, rfl⟩ := h.phase_eq_or_finish
    · simp [hidle, hrun] at hphase
    · exact ⟨⟨hm, hrun, by simpa using hms⟩, l, by rwa [← currentItems_takeMove],
        by simpa using hfi, by simp⟩
  | _ => simp [hrun]

/-! ### Cells without a meaning (10_state.md R20) -/

@[simp] theorem erase_phase (s : State) : (erase s).block.phase = s.block.phase := by
  unfold erase eraseBlock
  cases hphase : s.block.phase with
  | idle => rfl
  | run => cases s.block.ms <;> rfl

/-- Erasing twice is erasing once. -/
@[simp] theorem erase_erase (s : State) : erase (erase s) = erase s := by
  cases hphase : s.block.phase with
  | idle => simp [erase, eraseBlock, hphase]
  | run => cases hms : s.block.ms <;> simp [erase, eraseBlock, hphase, hms]

@[simp] theorem takeMove_erase (s : State) : takeMove (erase s) = erase (takeMove s) := by
  unfold takeMove erase
  split <;> simp_all

/-- The agents around the block read no cell of the block. -/
theorem eraseOutcome_runMove_erase (hm : m ≠ .block) (s : State) :
    eraseOutcome (runMove m (erase s)) = eraseOutcome (runMove m s) := by
  have hcongr {t t' : State} (h : t = erase t') :
      eraseOutcome (.next t) = eraseOutcome (.next t') := by
    rw [h, eraseOutcome, erase_erase, eraseOutcome]
  cases m with
  | block => exact absurd rfl hm
  | host => exact hcongr (by simp only [stepHost, erase]; split <;> simp)
  | pe1 => exact hcongr (by simp only [stepPE1, erase]; split <;> simp)
  | pe2 => exact hcongr (by simp only [stepPE2, erase]; split <;> simp [emit])
  | pe3 => exact hcongr (by cases hrfl : s.bus.rfl <;> simp [stepPE3, erase, hrfl])
  | te1 =>
    exact hcongr (by
      cases hen : s.timer.run && !s.timer.ovf <;> simp only [stepTE1, erase, hen] <;> rfl)

/-- The slave's latch neither reads nor writes the block. -/
theorem erase_latchWindow (w : Option (List Byte)) (s : State) :
    erase (latchWindow w s) = latchWindow w (erase s) := by
  unfold latchWindow
  split
  · split
    · simp only [latchPair_eq, erase]
    · rfl
  · rfl

/-- A running block keeps its latch when it is erased. -/
theorem currentItems_erase (hrun : s.block.phase = .run) :
    currentItems (erase s) = currentItems s := by
  cases hms : s.block.ms <;> simp only [currentItems, latchedWord, erase, eraseBlock, hrun, hms]

theorem microEnabled_erase (hrun : s.block.phase = .run) :
    microEnabled (erase s) = microEnabled s := by
  cases hms : s.block.ms <;>
    simp [microEnabled, erase, eraseBlock, hrun, hms, txNf, txCnt, sBusy]

/-- FETCH's load writes the cells that its item's micro-steps keep. -/
theorem erase_loadItem_erase (hrun : s.block.phase = .run) (hms : s.block.ms = .fetch) (it : Item) :
    erase (loadItem it (erase s)) = erase (loadItem it s) := by
  cases it with
  | frame a v => simp [loadItem, setMs, erase, eraseBlock, hrun, hms]
  | wait u n =>
    simp only [loadItem]
    split <;> simp [setMs, erase, eraseBlock, hrun, hms]

/-- The micro-step of an erased state answers what that of the state does: the cells it reads are kept
at its `MS`, and those kept at the next `MS` are kept or written. -/
theorem eraseOutcome_microStep_erase (hrun : s.block.phase = .run) :
    eraseOutcome (microStep (erase s)) = eraseOutcome (microStep s) := by
  cases hen : microEnabled s with
  | false =>
    rw [microStep_of_not_microEnabled hen,
      microStep_of_not_microEnabled ((microEnabled_erase hrun).trans hen)]
    simp [eraseOutcome]
  | true =>
    cases hms : s.block.ms
    case fetch =>
      have hms' : (erase s).block.ms = .fetch := by simp [erase, eraseBlock, hrun, hms]
      have hfi : (erase s).block.fi = s.block.fi := by simp [erase, eraseBlock, hrun, hms]
      simp only [microStep, hms, hms', stepFetch, currentItems_erase hrun, hfi]
      split
      · rfl
      · split
        · simp [finishCommand, emit, eraseOutcome, erase, eraseBlock]
        · split
          · exact congrArg Host.Outcome.next (erase_loadItem_erase hrun hms _)
          · rfl
    case t4 =>
      have hbyte : frameByte (erase s) s.block.bi = frameByte s s.block.bi := by
        simp [frameByte, erase, eraseBlock, hrun, hms]
      have hspace : txNf s = true := by simpa [microEnabled, hms] using hen
      simp only [microStep, erase, eraseBlock, hrun, hms, stepT4, txNf] at hbyte hspace ⊢
      rw [hbyte, if_pos hspace, if_pos hspace]
      split
      · rfl
      · split <;> simp [setMs, eraseOutcome, erase, eraseBlock]
    case wo =>
      have hovf : s.timer.ovf = true := by simpa [microEnabled, hms] using hen
      simp only [microStep, erase, eraseBlock, hrun, hms, stepWO, hovf, if_true]
      split
      · rfl
      · split <;> simp [emit, setMs, eraseOutcome, erase, eraseBlock]
    case t8 =>
      have hms' : (erase s).block.ms = .t8 := by simp [erase, eraseBlock, hrun, hms]
      have hdeselect : erase (deselect (erase s)) = erase (deselect s) := by
        simp [deselect, setMs, emit, erase, eraseBlock, hrun, hms]
      simp only [microStep, hms, hms', stepT8, eraseOutcome, erase_latchWindow, hdeselect]
      rfl
    case t1 | t5a | t5b | t7w =>
      simp only [microEnabled, hms, txCnt, sBusy] at hen
      simp_all [microStep, stepT1, stepT5A, stepT5B, stepT7W, txCnt, sBusy, setMs, eraseOutcome, erase,
        eraseBlock]
    case t2 | t3 | t6 | t7t | t9 | wl | wc | ws | wx =>
      simp [microStep, stepT2, stepT3, stepT6, stepT7T, stepT9, stepWL, stepWC, stepWS, stepWX, emit,
        setMs, endItem, eraseOutcome, erase, eraseBlock, hrun, hms]

/-- A step of an erased state answers what a step of the state does. -/
theorem eraseOutcome_step_erase (s : State) :
    eraseOutcome (step (erase s)) = eraseOutcome (step s) := by
  by_cases hm : nextMove s = .block
  · have hm' : nextMove (erase s) = .block := hm
    cases hphase : s.block.phase with
    | run =>
      rw [step_run hm hphase, step_run hm' (by simpa), takeMove_erase]
      exact eraseOutcome_microStep_erase (by simpa)
    | idle =>
      have hphase' : (erase s).block.phase = .idle := by simpa
      cases hvalid : s.port.valid with
      | false =>
        rw [step_idle_of_no_offer hm hphase hvalid, step_idle_of_no_offer hm' hphase' hvalid]
        simp [eraseOutcome]
      | true =>
        cases hd : decodeCmd s.port.word with
        | command i =>
          rw [step_idle_of_command hm hphase hvalid hd, step_idle_of_command hm' hphase' hvalid hd]
          simp [eraseOutcome, latchCommand, emit, withdrawOffer, erase, eraseBlock]
        | _ =>
          rw [step_idle_of_offer hm hphase hvalid, step_idle_of_offer hm' hphase' hvalid, hd]
          simp [erase, hd]
  · rw [step_of_ne_block hm, step_of_ne_block (s := erase s) hm, takeMove_erase]
    exact eraseOutcome_runMove_erase hm _

/-- Settles O46: both steps answer what the step of the one erased state does. -/
theorem meaninglessCellsCannotBeObserved : Obligations.MeaninglessCellsCannotBeObserved := by
  intro s t h
  rw [← eraseOutcome_step_erase s, h, eraseOutcome_step_erase]

end Sys2Proof.Machine
end

section
/-! PROOFS. The bus discipline and the sequence position are kept by every step; under them no step
faults, a running command is never stuck, and each block step brings it nearer its end. -/

namespace Sys2Proof.Machine

variable {s t : State} {m : Move} {l : List Item}

/-! ### The invariants do not look at the schedule -/

theorem BusInv.takeMove (h : BusInv s) : BusInv (takeMove s) := by
  unfold Machine.takeMove
  split <;> exact h

theorem PositionInv.takeMove (h : PositionInv s) : PositionInv (takeMove s) := by
  unfold Machine.takeMove
  split <;> exact h

theorem TimerInv.takeMove (h : TimerInv s) : TimerInv (takeMove s) := by
  unfold Machine.takeMove
  split <;> exact h

/-! ### The bus discipline (41_transfer.md R166) -/

theorem BusInv.busAt (h : BusInv s) (hrun : s.block.phase = .run) : busAt s := by
  simpa only [hrun] using h.2

theorem BusInv.busFree (h : BusInv s) (hidle : s.block.phase = .idle) : BusFree s := by
  simpa only [hidle] using h.2

/-- Bytes are under way only from T4 to T5B. -/
theorem BusInv.quiet_or_sending (h : BusInv s) :
    Quiet s ∨ s.block.phase = .run ∧ (s.block.ms = .t4 ∨ s.block.ms = .t5a ∨ s.block.ms = .t5b) := by
  cases hphase : s.block.phase with
  | idle => exact .inl (h.busFree hphase).2
  | run =>
    have hbus := h.busAt hphase
    unfold Machine.busAt at hbus
    cases hms : s.block.ms <;> simp_all [BusFree]

theorem MicroTurn.keeps_busInv (ht : MicroTurn s t) (hrun : s.block.phase = .run) (h : BusInv s) :
    BusInv t := by
  obtain ⟨hlen, hbus⟩ := h
  simp only [hrun] at hbus
  unfold busAt at hbus
  cases ht with
  | @load _ it hms hl hit =>
    simp only [hms] at hbus
    cases it with
    | frame a v => simp_all [BusInv, busAt, loadItem, BusFree, Quiet]
    | wait u n =>
      simp only [loadItem]
      split <;> simp_all [BusInv, busAt, BusFree, Quiet]
  | t4 hms hspace hb =>
    simp only [hms] at hbus
    have hlen' : s.bus.txq.length + 1 ≤ Config.fifoDepth := by simpa [txNf] using hspace
    split
    · simp_all [BusInv, busAt, BusTaken]
    · have hbi : s.block.bi = Config.size := by omega
      simp_all [BusInv, busAt, BusTaken]
  | wo hms =>
    simp only [hms] at hbus
    split <;> simp_all [BusInv, busAt, BusFree, Quiet]
  | _ => simp_all [BusInv, busAt, BusFree, BusTaken, Quiet]

theorem Turn.keeps_busInv (ht : Turn s m t) (h : BusInv s) : BusInv t := by
  cases ht with
  | hold => exact h
  | accept hidle => exact ⟨h.1, h.busFree hidle⟩
  | micro hrun ht => exact ht.keeps_busInv hrun h
  | host | te1 => exact h
  | @pe1 b rest hshift htxq =>
    obtain hquiet | ⟨hrun, hms⟩ := h.quiet_or_sending
    · simp [hquiet.1] at htxq
    · have hbus := h.busAt hrun
      have hlen : rest.length ≤ Config.fifoDepth :=
        (Nat.le_succ _).trans (by simpa [htxq] using h.1)
      unfold busAt at hbus
      rcases hms with hms | hms | hms <;> simp_all [BusInv, busAt, BusTaken]
  | pe2 hshift =>
    obtain hquiet | ⟨hrun, hms⟩ := h.quiet_or_sending
    · simp [hquiet.2] at hshift
    · have hbus := h.busAt hrun
      have hlen := h.1
      unfold busAt at hbus
      rcases hms with hms | hms | hms <;> simp_all [BusInv, busAt, BusTaken]
  | pe3 =>
    cases hphase : s.block.phase with
    | idle => exact ⟨h.1, by simpa [hphase, BusFree, Quiet] using h.busFree hphase⟩
    | run =>
      have hbus := h.busAt hphase
      have hlen := h.1
      unfold busAt at hbus
      cases hms : s.block.ms <;> simp_all [BusInv, busAt, BusFree, BusTaken, Quiet]

/-- Settles O47: turn by turn. -/
theorem stepKeepsTheBusDiscipline : Obligations.StepKeepsTheBusDiscipline :=
  fun _ _ h hstep => (turn_of_step hstep).keeps_busInv h.takeMove

/-! ### The sequence position (44_sequencer.md R216; 40_delay.md R134, R135) -/

/-- The item list is read from the latch alone. -/
theorem currentItems_congr (hlatch : t.block.op = s.block.op ∧ t.block.a = s.block.a ∧
    t.block.b = s.block.b) : currentItems t = currentItems s := by
  obtain ⟨hop, ha, hb⟩ := hlatch
  simp only [currentItems, latchedWord, hop, ha, hb]

theorem MicroTurn.currentItems_eq (ht : MicroTurn s t) : currentItems t = currentItems s :=
  currentItems_congr ht.latch_eq

/-- A position of the list that holds an item is not past its end. -/
theorem succ_le_length_of_getElem? {it : Item} {k : Nat} (h : l[k]? = some it) : k + 1 ≤ l.length :=
  (List.getElem?_eq_some_iff.1 h).1

/-- Where the position goes when a micro-step does not end the command. -/
theorem MicroTurn.keeps_positionAt (ht : MicroTurn s t) (hrun : t.block.phase = .run)
    (hl : currentItems s = some l) (h : positionAt l s) : positionAt l t := by
  unfold Machine.positionAt at h
  cases ht with
  | finish => cases hrun
  | @load l' it hms hl' hit =>
    obtain rfl : l' = l := Option.some.inj (hl'.symm.trans hl)
    cases it with
    | frame a v => simpa [Machine.positionAt, loadItem] using hit
    | wait u n =>
      simp only [loadItem]
      split
      · next hn => subst hn; exact ⟨⟨_, hit⟩, rfl⟩
      · next hn => exact ⟨n, hit, hn, le_rfl⟩
  | t4 hms =>
    simp only [hms] at h
    split <;> exact h
  | t8 hms =>
    simp only [hms] at h
    simpa [Machine.positionAt] using h
  | t9 hms =>
    simp only [hms] at h
    exact succ_le_length_of_getElem? h
  | wo hms hovf hdn =>
    simp only [hms] at h
    obtain ⟨n, hit, -, hle⟩ := h
    split
    · next hlast => exact ⟨⟨n, hit⟩, hlast⟩
    · next hlast =>
      refine ⟨n, hit, hlast, ?_⟩
      show (s.block.dn - 1).toNat ≤ n.toNat
      bv_omega
  | wx hms =>
    simp only [hms] at h
    obtain ⟨⟨n, hit⟩, -⟩ := h
    exact succ_le_length_of_getElem? hit
  | t1 hms | t2 hms | t3 hms | t5a hms | t5b hms | t6 hms | t7t hms | t7w hms | wl hms | wc hms
  | ws hms =>
    simp only [hms] at h
    exact h

theorem Turn.keeps_positionInv (ht : Turn s m t) (h : PositionInv s) : PositionInv t := by
  cases ht with
  | accept hidle hvalid hd =>
    intro _
    obtain ⟨l, hl, -⟩ := exists_itemsOfWord_of_command hd
    exact ⟨l, (currentItems_latchCommand hd).trans hl, Nat.zero_le _⟩
  | micro hrun ht =>
    intro hrun'
    obtain ⟨l, hl, hpos⟩ := h hrun
    exact ⟨l, ht.currentItems_eq.trans hl, ht.keeps_positionAt hrun' hl hpos⟩
  | hold | host | pe1 | pe2 | pe3 | te1 => exact h

/-- Only WS leads to WO, and it starts the counter; only WX stops it. -/
theorem MicroTurn.keeps_timerInv (ht : MicroTurn s t) : TimerInv t := by
  intro _ hwo
  cases ht with
  | @load _ it =>
    cases it with
    | frame => cases hwo
    | wait u n => simp [loadItem] at hwo; split at hwo <;> cases hwo
  | t4 | wo => simp at hwo; split at hwo <;> cases hwo
  | t8 => simp at hwo
  | _ => simp_all

theorem Turn.keeps_timerInv (ht : Turn s m t) (h : TimerInv s) : TimerInv t := by
  cases ht with
  | accept => exact fun _ hwo => MicroStep.noConfusion hwo
  | micro _ ht => exact ht.keeps_timerInv
  | hold | host | pe1 | pe2 | pe3 | te1 => exact h

/-- Settles O48: turn by turn. -/
theorem stepKeepsTheSequencePosition : Obligations.StepKeepsTheSequencePosition :=
  fun _ _ hpos htimer hstep =>
    ⟨(turn_of_step hstep).keeps_positionInv hpos.takeMove,
      (turn_of_step hstep).keeps_timerInv htimer.takeMove⟩

/-! ### No fault (60_exceptions.md R240) -/

theorem exists_frameByte {k : Nat} (hk : k ≤ Config.size) : ∃ b, frameByte s k = some b := by
  match k, hk with
  | 0, _ | 1, _ | 2, _ => exact ⟨_, rfl⟩

/-- Under the invariants an enabled micro-step has its row. -/
theorem exists_microTurn (hbus : BusInv s) (hpos : PositionInv s) (hrun : s.block.phase = .run)
    (hen : microEnabled s = true) : ∃ t, MicroTurn s t := by
  have hbus := hbus.busAt hrun
  obtain ⟨l, hl, hpos⟩ := hpos hrun
  unfold busAt at hbus
  unfold positionAt at hpos
  unfold microEnabled at hen
  cases hms : s.block.ms <;> simp only [hms] at hbus hpos hen
  case fetch =>
    obtain hlt | hfi := hpos.lt_or_eq
    · exact ⟨_, .load hms hl (List.getElem?_eq_getElem hlt)⟩
    · exact ⟨_, .finish hms hl hfi⟩
  case t4 =>
    obtain ⟨b, hb⟩ := exists_frameByte hbus.2
    exact ⟨_, .t4 hms hen hb⟩
  case wo =>
    obtain ⟨n, -, hdn, -⟩ := hpos
    exact ⟨_, .wo hms hen hdn⟩
  case t1 => exact ⟨_, .t1 hms (by simpa using hen)⟩
  case t5a => exact ⟨_, .t5a hms (by simpa [txCnt] using hen)⟩
  case t5b => exact ⟨_, .t5b hms (by simpa [sBusy] using hen)⟩
  case t7w => exact ⟨_, .t7w hms (by simpa using hen)⟩
  case t2 => exact ⟨_, .t2 hms⟩
  case t3 => exact ⟨_, .t3 hms⟩
  case t6 => exact ⟨_, .t6 hms⟩
  case t7t => exact ⟨_, .t7t hms⟩
  case t8 => exact ⟨_, .t8 hms⟩
  case t9 => exact ⟨_, .t9 hms⟩
  case wl => exact ⟨_, .wl hms⟩
  case wc => exact ⟨_, .wc hms⟩
  case ws => exact ⟨_, .ws hms⟩
  case wx => exact ⟨_, .wx hms⟩

/-- Under the invariants a running machine always has its turn. -/
theorem exists_turn_of_run (hbus : BusInv s) (hpos : PositionInv s) (hrun : s.block.phase = .run)
    (m : Move) : ∃ t, Turn s m t := by
  cases hen : moveEnabled m s with
  | false => exact ⟨s, .hold hen⟩
  | true =>
    by_cases hm : m = .block
    · subst hm
      obtain ⟨t, ht⟩ := exists_microTurn hbus hpos hrun (by
        simpa [moveEnabled, blockEnabled, hrun] using hen)
      exact ⟨t, .micro hrun ht⟩
    · exact exists_turn_of_ne_block hm s

/-- Settles O51: in RUN there is a turn, in IDLE the verdict decides between a next state and a
refusal, and another agent always has its turn. -/
theorem noStepFaults : Obligations.NoStepFaults := by
  intro s f hbus hpos hfault
  cases hphase : s.block.phase with
  | run =>
    obtain ⟨t, ht⟩ := exists_turn_of_run hbus.takeMove hpos.takeMove (by simpa) (nextMove s)
    cases hfault.symm.trans ht.step_eq
  | idle =>
    by_cases hm : nextMove s = .block
    · cases hvalid : s.port.valid with
      | false => cases hfault.symm.trans (step_idle_of_no_offer hm hphase hvalid)
      | true =>
        cases hd : decodeCmd s.port.word with
        | command i => cases hfault.symm.trans (step_idle_of_command hm hphase hvalid hd)
        | _ => rw [step_idle_of_offer hm hphase hvalid, hd] at hfault; cases hfault
    · obtain ⟨t, ht⟩ := exists_turn_of_ne_block hm (takeMove s)
      cases hfault.symm.trans ht.step_eq

/-! ### No dead end (20_memory.md R84) -/

/-- With a byte in the FIFO the bus peripheral can load it, or finish the one before. -/
theorem busp_enabled_of_txq_ne_nil (h : s.bus.txq ≠ []) :
    moveEnabled .pe1 s = true ∨ moveEnabled .pe2 s = true := by
  cases hshift : s.bus.shift <;> simp [moveEnabled, hshift, h]

/-- Whatever the block waits for, some agent but the host can bring it about. -/
theorem exists_moveEnabled (hbus : BusInv s) (htimer : TimerInv s) (hrun : s.block.phase = .run) :
    ∃ m, m ≠ .host ∧ moveEnabled m s = true := by
  have hat := hbus.busAt hrun
  have hbusp (h : s.bus.txq ≠ []) : ∃ m, m ≠ .host ∧ moveEnabled m s = true :=
    (busp_enabled_of_txq_ne_nil h).elim (⟨.pe1, by decide, ·⟩) (⟨.pe2, by decide, ·⟩)
  cases hen : microEnabled s with
  | true => exact ⟨.block, by decide, by simpa [moveEnabled, blockEnabled, hrun] using hen⟩
  | false =>
    unfold busAt at hat
    unfold microEnabled at hen
    cases hms : s.block.ms <;> simp only [hms] at hat hen
    case t1 => simp [hat.1] at hen
    case t4 =>
      refine hbusp fun hnil => ?_
      simp [txNf, hnil, Config.fifoDepth] at hen
    case t5a => exact hbusp fun hnil => by simp [txCnt, hnil] at hen
    case t5b => exact ⟨.pe2, by decide, by simpa [moveEnabled, sBusy] using hen⟩
    case t7w => exact ⟨.pe3, by decide, by simpa [moveEnabled] using hen⟩
    case wo => exact ⟨.te1, by decide, by simp [moveEnabled, hen, htimer hrun hms]⟩
    all_goals cases hen

/-- Settles O52. -/
theorem runningCommandIsNeverStuck : Obligations.RunningCommandIsNeverStuck := by
  rintro s hbus htimer ⟨hrun, hstuck⟩
  obtain ⟨m, hm, hen⟩ := exists_moveEnabled hbus htimer hrun
  exact Bool.noConfusion (hen.symm.trans (hstuck m hm))

/-! ### The steps left (44_sequencer.md R217) -/

theorem listSteps_cons (it : Item) (l : List Item) :
    listSteps (it :: l) = itemSteps it + 1 + listSteps l := by
  simp [listSteps]
  omega

theorem listSteps_drop {it : Item} {k : Nat} (h : l[k]? = some it) :
    listSteps (l.drop k) = itemSteps it + 1 + listSteps (l.drop (k + 1)) := by
  obtain ⟨hlt, rfl⟩ := List.getElem?_eq_some_iff.1 h
  rw [List.drop_eq_getElem_cons hlt, listSteps_cons]

/-- The steps left are read from the block alone. -/
theorem stepsLeft_congr (h : t.block = s.block) : stepsLeft t = stepsLeft s := by
  simp only [stepsLeft, itemStepsLeft, currentItems, latchedWord, h]

/-- In RUN, the steps left of the item in progress and of the items after it. -/
theorem stepsLeft_of_run (hrun : s.block.phase = .run) (hl : currentItems s = some l) :
    stepsLeft s = itemStepsLeft s +
      listSteps (l.drop (if s.block.ms = .fetch then s.block.fi else s.block.fi + 1)) := by
  cases hms : s.block.ms <;> simp [stepsLeft, hrun, hl, hms, itemStepsLeft]

theorem MicroTurn.stepsLeft_succ (ht : MicroTurn s t) (hrun : s.block.phase = .run)
    (hbus : BusInv s) (hl : currentItems s = some l) (hpos : positionAt l s) :
    stepsLeft t + 1 = stepsLeft s := by
  have hlt := ht.currentItems_eq.trans hl
  have hat := hbus.busAt hrun
  rw [stepsLeft_of_run hrun hl]
  unfold busAt at hat
  unfold positionAt at hpos
  cases ht with
  | finish hms hl' hfi =>
    obtain rfl := Option.some.inj (hl'.symm.trans hl)
    simp [stepsLeft, itemStepsLeft, hms, hfi, listSteps]
  | @load l' it hms hl' hit =>
    obtain rfl := Option.some.inj (hl'.symm.trans hl)
    rw [stepsLeft_of_run (by simpa) hlt, if_pos hms, listSteps_drop hit]
    cases it with
    | frame a v => simp [loadItem, itemStepsLeft, hms, itemSteps]; omega
    | wait u n =>
      by_cases hn : n = 0
      · simp [loadItem, itemStepsLeft, hms, itemSteps, hn]; omega
      · simp only [loadItem, if_neg hn, itemStepsLeft, hms, itemSteps, setMs_block]
        simp; omega
  | t4 hms =>
    rw [stepsLeft_of_run (by simpa) hlt]
    simp only [hms] at hat
    have hbi : s.block.bi ≤ 2 := hat.2
    split
    · simp [itemStepsLeft, hms]
      omega
    · next hlast =>
      have hbi' : s.block.bi = 2 := by simp only [Config.size] at hlast; omega
      simp [itemStepsLeft, hms, hbi']
      omega
  | wo hms hovf hdn =>
    rw [stepsLeft_of_run (by simpa) hlt]
    split
    · next hlast =>
      have hone := (Word16.sub_one_eq_zero_iff _).1 hlast
      simp [itemStepsLeft, hms, hone]
      omega
    · next hmore =>
      have htwo : 2 ≤ s.block.dn.toNat := by bv_omega
      have hsub : (s.block.dn - 1).toNat = s.block.dn.toNat - 1 := by bv_omega
      simp only [itemStepsLeft, hms, emit_block, setMs_block, hsub]
      simp
      omega
  | wc hms | ws hms =>
    rw [stepsLeft_of_run (by simpa) hlt]
    simp only [hms] at hpos
    obtain ⟨n, -, hdn, -⟩ := hpos
    have hone : 1 ≤ s.block.dn.toNat := by bv_omega
    simp [itemStepsLeft, hms]
    omega
  | t1 hms | t2 hms | t3 hms | t5a hms | t5b hms | t6 hms | t7t hms | t7w hms | t8 hms | t9 hms
  | wl hms | wx hms =>
    rw [stepsLeft_of_run (by simpa) hlt]
    simp [itemStepsLeft, hms]
    omega

/-- The block's enabled turn in RUN takes one step off, any other turn none. -/
theorem Turn.stepsLeft_eq (ht : Turn s m t) (hrun : s.block.phase = .run) (hbus : BusInv s)
    (hpos : PositionInv s) :
    stepsLeft s = stepsLeft t + if m = .block ∧ moveEnabled m s = true then 1 else 0 := by
  cases ht with
  | hold hen => simp [hen]
  | accept hidle => cases hidle.symm.trans hrun
  | micro _ ht =>
    obtain ⟨l, hl, hpos⟩ := hpos hrun
    rw [if_pos ⟨rfl, by simpa [moveEnabled, blockEnabled, hrun] using ht.microEnabled⟩,
      ht.stepsLeft_succ hrun hbus hl hpos]
  | host | pe1 | pe2 | pe3 | te1 => exact (stepsLeft_congr rfl).symm

/-- Settles O53: the turn exists under the invariants, and takes off what it takes off. -/
theorem blockStepsCountDown : Obligations.BlockStepsCountDown := by
  intro s hbus hpos hrun
  have hrun' : (takeMove s).block.phase = .run := by simpa
  obtain ⟨t, ht⟩ := exists_turn_of_run hbus.takeMove hpos.takeMove hrun' (nextMove s)
  have hsteps := ht.stepsLeft_eq hrun' hbus.takeMove hpos.takeMove
  rw [stepsLeft_congr (takeMove_block s), moveEnabled_takeMove] at hsteps
  refine ⟨fun hm hen => ⟨t, ht.step_eq, ?_⟩, fun hm => ⟨t, ht.step_eq, ?_⟩⟩
  · rw [hsteps, if_pos ⟨hm, by rwa [hm]⟩]
  · rw [hsteps, if_neg fun h => hm h.1, Nat.add_zero]

end Sys2Proof.Machine
end

section
/-! PROOFS. The trace in program order, the slave image of the trace and the released bus are kept by
every step. -/

namespace Sys2Proof.Machine

variable {s t : State} {m : Move} {l : List Item} {ws : List Word24} {tr evs new : List Event}

/-! ### The trace by completed commands and the items done so far (20_memory.md R88) -/

/-- `tr` holds the events of the items before `FI` and of the item in progress. -/
def DoneSoFar (l : List Item) (s : State) (tr : List Event) : Prop :=
  ∃ evs, partialEvents s evs ∧ tr = (l.take s.block.fi).flatMap itemEvents ++ evs

/-- What `TraceInv` says, of given completed commands. -/
def TraceOf (ws : List Word24) (s : State) : Prop :=
  match s.block.phase with
  | .idle => s.trace = ws.flatMap commandEvents
  | .run => ∃ l tr, currentItems s = some l ∧ DoneSoFar l s tr ∧
      s.trace = ws.flatMap commandEvents ++ .cmdAccept (latchedWord s) :: tr

theorem traceOf_idle_iff (hidle : s.block.phase = .idle) :
    TraceOf ws s ↔ s.trace = ws.flatMap commandEvents := by
  simp only [TraceOf, hidle]

theorem traceOf_run_iff (hrun : s.block.phase = .run) :
    TraceOf ws s ↔ ∃ l tr, currentItems s = some l ∧ DoneSoFar l s tr ∧
      s.trace = ws.flatMap commandEvents ++ .cmdAccept (latchedWord s) :: tr := by
  simp only [TraceOf, hrun]

theorem traceInv_iff : TraceInv s ↔ ∃ ws, Accepted ws ∧ TraceOf ws s := by
  refine exists_congr fun ws => and_congr_right fun _ => ?_
  cases hphase : s.block.phase with
  | idle => simp only [TraceOf, hphase]
  | run => simp only [TraceOf, hphase, DoneSoFar]; grind

theorem TraceInv.takeMove (h : TraceInv s) : TraceInv (takeMove s) := by
  unfold Machine.takeMove
  split <;> exact h

/-- Going on with an item: its events so far grow by what the turn leaves in the trace. -/
theorem doneSoFar_append (hfi : t.block.fi = s.block.fi) (h : partialEvents t (evs ++ new)) :
    DoneSoFar l t ((l.take s.block.fi).flatMap itemEvents ++ evs ++ new) :=
  ⟨evs ++ new, h, by rw [hfi, List.append_assoc]⟩

/-- Ending an item: its events are complete. -/
theorem doneSoFar_endItem {it : Item} (hms : t.block.ms = .fetch)
    (hfi : t.block.fi = s.block.fi + 1) (hit : l[s.block.fi]? = some it)
    (hev : itemEvents it = evs ++ new) :
    DoneSoFar l t ((l.take s.block.fi).flatMap itemEvents ++ evs ++ new) := by
  refine ⟨[], by simp [partialEvents, hms], ?_⟩
  simp [hfi, List.take_add_one, hit, hev]

theorem getElem?_frameBytes (s : State) (k : Nat) :
    (frameBytes s.block.pay0 s.block.pay1)[k]? = frameByte s k := by
  match k with
  | 0 | 1 | 2 | _ + 3 => rfl

/-- The ticks of a wait after one more iteration. -/
theorem replicate_tick_succ {n d : Word16} (u : TUnit) (hd : d ≠ 0) (hle : d.toNat ≤ n.toNat) :
    List.replicate (n.toNat - (d - 1).toNat) (Event.tick u) =
      List.replicate (n.toNat - d.toNat) (.tick u) ++ [.tick u] := by
  rw [← List.replicate_succ']
  congr 1
  bv_omega

/-- A micro-step that does not end the command keeps the account of the items done so far. -/
theorem MicroTurn.keeps_doneSoFar (ht : MicroTurn s t) (hrun : t.block.phase = .run)
    (hbus : busAt s) (hl : currentItems s = some l) (hpos : positionAt l s) (h : DoneSoFar l s tr) :
    ∃ new, t.trace = s.trace ++ new ∧ DoneSoFar l t (tr ++ new) := by
  obtain ⟨evs, hev, rfl⟩ := h
  have hlt := ht.currentItems_eq.trans hl
  unfold partialEvents at hev
  unfold busAt at hbus
  unfold positionAt at hpos
  cases ht with
  | finish => cases hrun
  | @load l' it hms hl' hit =>
    obtain rfl := Option.some.inj (hl'.symm.trans hl)
    simp only [hms] at hev
    subst hev
    refine ⟨[], by simp, doneSoFar_append (by simp) ?_⟩
    cases it with
    | frame a v => rfl
    | wait u n =>
      simp only [loadItem]
      split <;> exact ⟨l', n, hl, hit, by simp⟩
  | t1 hms | t7w hms =>
    simp only [hms] at hev
    exact ⟨[], by simp, doneSoFar_append rfl (by simp [partialEvents, hev])⟩
  | t2 hms | t6 hms | t7t hms =>
    simp only [hms] at hev
    exact ⟨[_], rfl, doneSoFar_append rfl (by simp [partialEvents, hev])⟩
  | t3 hms =>
    simp only [hms] at hev hbus
    obtain ⟨⟨-, htxq, hshift⟩, -⟩ := hbus
    exact ⟨[.selLow], by simp, doneSoFar_append rfl ⟨[], by simp [htxq, hshift], by simp [hev]⟩⟩
  | @t4 b hms hspace hb =>
    simp only [hms] at hev
    obtain ⟨sent, hsent, rfl⟩ := hev
    have hsent' : sent ++ s.bus.shift.toList ++ (s.bus.txq ++ [b]) =
        (frameBytes s.block.pay0 s.block.pay1).take (s.block.bi + 1) := by
      rw [List.take_add_one, getElem?_frameBytes, hb, ← hsent, List.append_assoc _ s.bus.txq]
      rfl
    refine ⟨[], by simp, doneSoFar_append rfl ?_⟩
    split <;> exact ⟨sent, hsent', by simp⟩
  | t5b hms hshift =>
    simp only [hms] at hev hbus
    obtain ⟨sent, hsent, rfl⟩ := hev
    obtain ⟨-, hbi, htxq⟩ := hbus
    have hall : sent = frameBytes s.block.pay0 s.block.pay1 := by
      simpa [hshift, htxq, hbi, Config.size, frameBytes] using hsent
    exact ⟨[], by simp, doneSoFar_append rfl (by simp [partialEvents, hall])⟩
  | t8 hms =>
    simp only [hms] at hev
    exact ⟨[.selHigh], by simp, doneSoFar_append (by simp) (by simp [partialEvents, hev])⟩
  | t9 hms =>
    simp only [hms] at hev hpos
    exact ⟨[.irqOn], by simp, doneSoFar_endItem rfl rfl hpos (by simp [itemEvents, hev])⟩
  | t5a hms | wl hms | wc hms | ws hms =>
    simp only [hms] at hev
    exact ⟨[], by simp, doneSoFar_append rfl (by rw [List.append_nil]; exact hev)⟩
  | wo hms hovf hdn =>
    simp only [hms] at hev hpos
    obtain ⟨l', n, hl', hit, rfl⟩ := hev
    obtain rfl := Option.some.inj (hl'.symm.trans hl)
    obtain ⟨n', hit', -, hle⟩ := hpos
    obtain rfl : n' = n := by simpa [hit] using hit'.symm
    refine ⟨[.tick s.block.u], by simp, doneSoFar_append rfl ?_⟩
    split <;> exact ⟨l', n', hl, hit, (replicate_tick_succ _ hdn hle).symm⟩
  | wx hms =>
    simp only [hms] at hev hpos
    obtain ⟨l', n, hl', hit, rfl⟩ := hev
    obtain rfl := Option.some.inj (hl'.symm.trans hl)
    exact ⟨[.tmrStop s.block.u], by simp,
      doneSoFar_endItem rfl rfl hit (by simp [itemEvents, hpos.2])⟩

/-- The bytes under way are among the item's events, whichever step of the bus peripheral moves them. -/
theorem keeps_doneSoFar_of_sending (hms : s.block.ms = .t4 ∨ s.block.ms = .t5a ∨ s.block.ms = .t5b)
    (hblock : t.block = s.block) {sentNow : List Byte}
    (hbytes : s.bus.shift.toList ++ s.bus.txq = sentNow ++ t.bus.shift.toList ++ t.bus.txq)
    (h : DoneSoFar l s tr) : DoneSoFar l t (tr ++ sentNow.map .byte) := by
  obtain ⟨evs, hev, rfl⟩ := h
  refine doneSoFar_append (by rw [hblock]) ?_
  unfold partialEvents at hev ⊢
  rcases hms with hms | hms | hms <;> simp only [hms, hblock] at hev ⊢ <;>
  · obtain ⟨sent, hsent, rfl⟩ := hev
    refine ⟨sent ++ sentNow, ?_, by simp⟩
    calc sent ++ sentNow ++ t.bus.shift.toList ++ t.bus.txq
        = sent ++ (sentNow ++ t.bus.shift.toList ++ t.bus.txq) := by simp
      _ = _ := by rw [← hbytes, ← hsent, List.append_assoc]

/-- Completing a command: its events are all there. -/
theorem flatMap_commandEvents_concat {w : Word24} (hl : itemsOfWord w = some l) (ws : List Word24) :
    (ws ++ [w]).flatMap commandEvents =
      ws.flatMap commandEvents ++ .cmdAccept w :: l.flatMap itemEvents ++ [.cmdDone] := by
  simp [commandEvents, hl]

theorem latchedWord_congr (hlatch : t.block.op = s.block.op ∧ t.block.a = s.block.a ∧
    t.block.b = s.block.b) : latchedWord t = latchedWord s := by
  obtain ⟨hop, ha, hb⟩ := hlatch
  simp only [latchedWord, hop, ha, hb]

/-- A micro-step that ends the command. -/
theorem MicroTurn.traceOf_of_idle (ht : MicroTurn s t) (hrun : s.block.phase = .run)
    (hidle : t.block.phase = .idle) (h : TraceOf ws s) : TraceOf (ws ++ [latchedWord s]) t := by
  obtain hphase | ⟨hms, ⟨l, hl, hfi⟩, rfl⟩ := ht.phase_eq_or_finish
  · rw [hidle, hrun] at hphase; cases hphase
  · obtain ⟨l', tr, hl', ⟨evs, hev, rfl⟩, htrace⟩ := (traceOf_run_iff hrun).1 h
    obtain rfl := Option.some.inj (hl'.symm.trans hl)
    obtain rfl : evs = [] := by simpa [partialEvents, hms] using hev
    rw [traceOf_idle_iff hidle, flatMap_commandEvents_concat hl, finishCommand_trace, htrace, hfi]
    simp

/-- A micro-step that goes on with the command. -/
theorem MicroTurn.traceOf_of_run (ht : MicroTurn s t) (hrun : s.block.phase = .run)
    (hrun' : t.block.phase = .run) (hbus : BusInv s) (hpos : PositionInv s) (h : TraceOf ws s) :
    TraceOf ws t := by
  obtain ⟨l, tr, hl, hdone, htrace⟩ := (traceOf_run_iff hrun).1 h
  obtain ⟨l', hl', hpos⟩ := hpos hrun
  obtain rfl := Option.some.inj (hl'.symm.trans hl)
  obtain ⟨new, hnew, hdone'⟩ := ht.keeps_doneSoFar hrun' (hbus.busAt hrun) hl hpos hdone
  refine (traceOf_run_iff hrun').2 ⟨l', _, ht.currentItems_eq.trans hl, hdone', ?_⟩
  rw [hnew, htrace, latchedWord_congr ht.latch_eq]
  simp

/-- The commands completed after a turn: one more when it ends the command in progress. -/
def completedAfter (ws : List Word24) (s t : State) : List Word24 :=
  if s.block.phase = .run ∧ t.block.phase = .idle then ws ++ [latchedWord s] else ws

theorem Turn.keeps_traceOf (ht : Turn s m t) (hbus : BusInv s) (hpos : PositionInv s)
    (h : TraceOf ws s) : TraceOf (completedAfter ws s t) t := by
  have hsame {t' : State} (hphase : t'.block.phase = s.block.phase) (h' : TraceOf ws t') :
      TraceOf (completedAfter ws s t') t' := by
    rwa [completedAfter, if_neg (by rw [hphase]; cases s.block.phase <;> decide)]
  cases ht with
  | hold | host | pe3 | te1 => exact hsame rfl h
  | accept hidle hvalid hd =>
    obtain ⟨l, -, hl⟩ := exists_itemsOfWord_of_command hd
    rw [completedAfter, if_neg (by simp), traceOf_run_iff rfl]
    have hword (s' : State) : latchedWord (latchCommand s.port.word s') = s.port.word :=
      (latchedWord_latchCommand _ _).trans (mkWord_fields _)
    refine ⟨l, [], by rw [currentItems, hword, hl], ⟨[], rfl, rfl⟩, ?_⟩
    rw [hword, ← (traceOf_idle_iff hidle).1 h]
    rfl
  | micro hrun ht =>
    cases hphase : t.block.phase with
    | idle =>
      rw [completedAfter, if_pos ⟨hrun, hphase⟩]
      exact ht.traceOf_of_idle hrun hphase h
    | run =>
      rw [completedAfter, if_neg (by simp [hphase])]
      exact ht.traceOf_of_run hrun hphase hbus hpos h
  | pe1 hshift htxq =>
    obtain hquiet | ⟨hrun, hms⟩ := hbus.quiet_or_sending
    · simp [hquiet.1] at htxq
    · obtain ⟨l, tr, hl, hdone, htrace⟩ := (traceOf_run_iff hrun).1 h
      refine hsame rfl ((traceOf_run_iff (by exact hrun)).2 ⟨l, tr, hl, ?_, htrace⟩)
      rw [← List.append_nil tr]
      exact keeps_doneSoFar_of_sending (sentNow := []) hms (by rfl) (by simp [hshift, htxq]) hdone
  | @pe2 b hshift =>
    obtain hquiet | ⟨hrun, hms⟩ := hbus.quiet_or_sending
    · simp [hquiet.2] at hshift
    · obtain ⟨l, tr, hl, hdone, htrace⟩ := (traceOf_run_iff hrun).1 h
      refine hsame rfl ((traceOf_run_iff (by exact hrun)).2 ⟨l, tr ++ [.byte b], hl, ?_, ?_⟩)
      · exact keeps_doneSoFar_of_sending (sentNow := [b]) hms (by rfl) (by simp [hshift]) hdone
      · show s.trace ++ [.byte b] = _ ++ .cmdAccept (latchedWord s) :: (tr ++ [.byte b])
        rw [htrace, List.append_assoc, List.cons_append]

/-- The word of a running command is in contract. -/
theorem accepted_completedAfter (hpos : PositionInv s) (hws : Accepted ws) :
    Accepted (completedAfter ws s t) := by
  unfold completedAfter
  split
  · next h =>
    obtain ⟨l, hl, -⟩ := hpos h.1
    simp only [Accepted, List.forall_mem_append, List.forall_mem_singleton]
    exact ⟨hws, Option.isSome_iff_exists.2 ⟨l, hl⟩⟩
  · exact hws

theorem Turn.keeps_traceInv (ht : Turn s m t) (hbus : BusInv s) (hpos : PositionInv s)
    (h : TraceInv s) : TraceInv t := by
  obtain ⟨ws, hws, h⟩ := traceInv_iff.1 h
  exact traceInv_iff.2 ⟨_, accepted_completedAfter hpos hws, ht.keeps_traceOf hbus hpos h⟩

/-- Settles O49: turn by turn. -/
theorem stepKeepsTheTraceInProgramOrder : Obligations.StepKeepsTheTraceInProgramOrder :=
  fun _ _ hbus hpos h hstep =>
    (turn_of_step hstep).keeps_traceInv hbus.takeMove hpos.takeMove h.takeMove

/-! ### The slave image (20_memory.md R86; 42_register_protocol.md R188) -/

theorem ImageInv.takeMove (h : ImageInv s) : ImageInv (takeMove s) := by
  unfold Machine.takeMove
  split <;> exact h

theorem MarkInv.takeMove (h : MarkInv s) : MarkInv (takeMove s) := by
  unfold Machine.takeMove
  split <;> exact h

/-- Only T8 changes the image or leaves a SEL_HIGH, and no other turn clears the mark. -/
theorem Turn.img_cases (ht : Turn s m t) :
    (t.img = s.img ∧ (s.intMark = true → t.intMark = true) ∧
      (t.trace = s.trace ∨ ∃ e, e ≠ .selHigh ∧ t.trace = s.trace ++ [e])) ∨
    t = latchWindow (openWindow s.trace) (deselect s) := by
  cases ht with
  | hold | host | pe1 | pe3 | te1 => exact .inl ⟨rfl, id, .inl rfl⟩
  | pe2 => exact .inl ⟨rfl, id, .inr ⟨_, by nofun, rfl⟩⟩
  | accept => exact .inl ⟨rfl, fun hmark => by simp [hmark], .inr ⟨_, by nofun, rfl⟩⟩
  | micro _ ht =>
    cases ht with
    | t8 => exact .inr rfl
    | load => exact .inl (by simp)
    | t1 | t4 | t5a | t5b | t7w | wl | wc | ws => exact .inl ⟨rfl, id, .inl rfl⟩
    | finish | t2 | t3 | t6 | t7t | t9 | wo | wx => exact .inl ⟨rfl, id, .inr ⟨_, by nofun, rfl⟩⟩

theorem Turn.keeps_imageInv (ht : Turn s m t) (h : ImageInv s) : ImageInv t := by
  obtain ⟨hwf, himg⟩ := h
  have himg' : t.img = imageOf t.trace := by
    obtain ⟨hsame, -, htrace | ⟨e, he, htrace⟩⟩ | rfl := ht.img_cases
    · rw [hsame, htrace, himg]
    · rw [hsame, htrace, himg, imageOf_concat_of_ne he]
    · rw [latchWindow_img, latchWindow_trace, deselect_trace, deselect_img, imageOf_concat_selHigh,
        himg]
  exact ⟨himg' ▸ imageOf_wf _, himg'⟩

theorem markInv_latchPair (a v : Byte) (h : MarkInv s) : MarkInv (latchPair a v s) := by
  intro x hread hx
  rw [latchPair_eq] at hread ⊢
  by_cases ha : a = Config.addrIntensity
  · subst ha
    rw [Memory.read_write_same] at hread
    cases hread
    simp [hx]
  · rw [Memory.read_write_other _ _ _ _ (Ne.symm ha)] at hread
    simp [h x hread hx]

theorem markInv_latchWindow (w : Option (List Byte)) (h : MarkInv s) :
    MarkInv (latchWindow w s) := by
  unfold latchWindow
  split
  · split
    · exact markInv_latchPair _ _ h
    · exact h
  · exact h

theorem Turn.keeps_markInv (ht : Turn s m t) (h : MarkInv s) : MarkInv t := by
  obtain ⟨hsame, hmark, -⟩ | rfl := ht.img_cases
  · intro v hread hv
    exact hmark (h v (hsame ▸ hread) hv)
  · exact markInv_latchWindow _ h

/-- Settles O50: turn by turn, from every state. -/
theorem stepKeepsTheImageOfTheTrace : Obligations.StepKeepsTheImageOfTheTrace :=
  fun _ _ himg hmark hstep =>
    ⟨(turn_of_step hstep).keeps_imageInv himg.takeMove,
      (turn_of_step hstep).keeps_markInv hmark.takeMove⟩

/-! ### The released bus (41_transfer.md R166; 70_reset_and_hazards.md R297) -/

theorem ReleasedInv.takeMove (h : ReleasedInv s) : ReleasedInv (takeMove s) := by
  unfold Machine.takeMove
  split <;> exact h

/-- The T9 that ends a transfer releases the bus, whatever was before. -/
theorem busReleased_of_t9 (hbus : busAt s) (hms : s.block.ms = .t9) :
    BusReleased (emit .irqOn (endItem { s with bus.irqEn := true })) := by
  unfold busAt at hbus
  simp only [hms] at hbus
  obtain ⟨-, -, hsettled⟩ := hbus
  exact ⟨hsettled, rfl⟩

/-- A micro-step that goes on with the command keeps what holds of the bus once a transfer has
completed. -/
theorem MicroTurn.keeps_settledAt (ht : MicroTurn s t) (hrun : t.block.phase = .run) (hbus : busAt s)
    (h : .irqOn ∈ s.trace → settledAt s) (hmem : .irqOn ∈ t.trace) : settledAt t := by
  cases ht with
  | finish => cases hrun
  | t9 hms => exact busReleased_of_t9 hbus hms
  | @load _ it hms =>
    have hsettled := h (by simpa using hmem)
    simp only [settledAt, hms] at hsettled
    cases it with
    | frame a v => exact hsettled
    | wait u n =>
      simp only [loadItem]
      split <;> exact hsettled
  | t4 hms | wo hms =>
    have hsettled := h (by simpa using hmem)
    simp only [settledAt, hms] at hsettled
    split <;> exact hsettled
  | t7w hms hrfl =>
    simp only [busAt, hms] at hbus
    obtain ⟨⟨-, hirq⟩, -, htc, hflushed⟩ := hbus
    exact ⟨⟨htc, hrfl, hflushed hrfl⟩, hirq⟩
  | t1 hms | t2 hms | t3 hms | t5a hms | t5b hms | t6 hms | t7t hms | t8 hms | wl hms | wc hms
  | ws hms | wx hms =>
    have hsettled := h (by simpa using hmem)
    simp only [settledAt, hms] at hsettled
    simp_all [settledAt, BusReleased, BusSettled]

theorem MicroTurn.keeps_releasedInv (ht : MicroTurn s t) (hrun : s.block.phase = .run)
    (hbus : busAt s) (h : ReleasedInv s) : ReleasedInv t := by
  intro hmem
  simp only [ReleasedInv, hrun] at h
  obtain hphase | ⟨hms, -, rfl⟩ := ht.phase_eq_or_finish
  · rw [hrun] at hphase
    simpa only [hphase] using ht.keeps_settledAt hphase hbus h hmem
  · have hreleased : BusReleased s := by simpa only [settledAt, hms] using h (by simpa using hmem)
    exact hreleased

theorem Turn.keeps_releasedInv (ht : Turn s m t) (hbus : BusInv s) (h : ReleasedInv s) :
    ReleasedInv t := by
  cases ht with
  | hold | host | pe1 | te1 => exact h
  | accept hidle =>
    intro hmem
    have hreleased : BusReleased s := by simpa only [hidle] using h (by simpa using hmem)
    exact hreleased
  | micro hrun ht => exact ht.keeps_releasedInv hrun (hbus.busAt hrun) h
  | pe2 hshift =>
    intro hmem
    have hsettled := h (by simpa using hmem)
    obtain hquiet | ⟨hrun, hms⟩ := hbus.quiet_or_sending
    · simp [hquiet.2] at hshift
    · rcases hms with hms | hms | hms <;> simpa [hrun, hms, settledAt] using hsettled
  | pe3 =>
    intro hmem
    have hsettled := h hmem
    cases hphase : s.block.phase with
    | idle => simp_all [BusReleased, BusSettled]
    | run => cases hms : s.block.ms <;> simp_all [settledAt, BusReleased, BusSettled]

/-- Settles O60: turn by turn; T9 establishes it. -/
theorem stepKeepsTheBusReleased : Obligations.StepKeepsTheBusReleased :=
  fun _ _ hbus h hstep => (turn_of_step hstep).keeps_releasedInv hbus.takeMove h.takeMove

/-! ### All invariants together (10_state.md R52) -/

theorem Inv.busInv (h : Inv s) : BusInv s := h.1

theorem Inv.positionInv (h : Inv s) : PositionInv s := h.2.2.1

theorem Inv.timerInv (h : Inv s) : TimerInv s := h.2.2.2.1

theorem Inv.traceInv (h : Inv s) : TraceInv s := h.2.2.2.2.1

theorem Turn.keeps_inv (ht : Turn s m t) (h : Inv s) : Inv t := by
  obtain ⟨hbus, hreleased, hpos, htimer, htrace, himg, hmark⟩ := h
  exact ⟨ht.keeps_busInv hbus, ht.keeps_releasedInv hbus hreleased, ht.keeps_positionInv hpos,
    ht.keeps_timerInv htimer, ht.keeps_traceInv hbus hpos htrace, ht.keeps_imageInv himg,
    ht.keeps_markInv hmark⟩

/-- Settles O9: the fields of the reset state. -/
theorem resetLeavesTheStatedValues : Obligations.ResetLeavesTheStatedValues :=
  ⟨rfl, rfl, rfl, rfl, rfl, fun _ => rfl⟩

/-- Settles O10: idle, quiet, nothing in the trace and nothing written. -/
theorem resetMeetsTheInvariant : Obligations.ResetMeetsTheInvariant := by
  refine ⟨⟨rfl, rfl, rfl, rfl⟩, ⟨Nat.zero_le _, rfl, rfl, rfl⟩, fun hmem => ?_, nofun, nofun,
    ⟨[], by simp [Accepted], rfl⟩, ⟨rfl, rfl⟩, nofun⟩
  cases hmem

end Sys2Proof.Machine
end

section
/-! PROOFS. What completed commands show: the windows, the view and the slave image of their events. -/

namespace Sys2Proof.Machine

variable {m : Memory} {a v : Byte} {l : List Item}

/-! ### Scanning the events of completed commands (00_scope.md R13) -/

/-- A scan that appends a part to its result for each block of events appends all parts in order. -/
theorem foldl_flatMap_append {σ ε α β : Type} {next : σ → ε → σ} {mk : List β → σ}
    {events : α → List ε} {part : α → List β}
    (h : ∀ x c, (events x).foldl next (mk c) = mk (c ++ part x)) (xs : List α) (c : List β) :
    (xs.flatMap events).foldl next (mk c) = mk (c ++ xs.flatMap part) := by
  induction xs generalizing c with
  | nil => simp
  | cons x xs ih => rw [List.flatMap_cons, List.foldl_append, h, ih]; simp

/-- The window scan between two items: no window open. -/
def betweenWindows (strays : Nat) (closed : List (List Byte)) : WindowScan :=
  { window := none, closed := closed, strays := strays }

theorem foldl_next_tick (u : TUnit) (n : Nat) (w : WindowScan) :
    (List.replicate n (Event.tick u)).foldl WindowScan.next w = w := by
  induction n with
  | zero => rfl
  | succ n ih => rw [List.replicate_succ, List.foldl_cons]; exact ih

theorem foldl_next_itemEvents (k : Nat) (it : Item) (c : List (List Byte)) :
    (itemEvents it).foldl WindowScan.next (betweenWindows k c) =
      betweenWindows k (c ++ itemWindows it) := by
  cases it with
  | frame a v => rfl
  | wait u n => simp [itemEvents, foldl_next_tick, WindowScan.next, itemWindows]

theorem foldl_next_commandEvents (k : Nat) (w : Word24) (c : List (List Byte)) :
    (commandEvents w).foldl WindowScan.next (betweenWindows k c) =
      betweenWindows k (c ++ (itemsOrNone w).flatMap itemWindows) := by
  have hitems := foldl_flatMap_append (foldl_next_itemEvents k) (itemsOrNone w) c
  rw [commandEvents, List.cons_append, List.foldl_cons, List.foldl_append]
  exact congrArg (fun ws => WindowScan.next ws .cmdDone) hitems

theorem scanWindows_flatMap_commandEvents (ws : List Word24) :
    scanWindows (ws.flatMap commandEvents) =
      betweenWindows 0 (ws.flatMap fun w => (itemsOrNone w).flatMap itemWindows) :=
  foldl_flatMap_append (foldl_next_commandEvents 0) ws []

/-- The view scan between two items: no window open, no tick counted. -/
def betweenViews (items : List ViewItem) : ViewScan :=
  { window := none, usTicks := 0, msTicks := 0, items := items }

/-- `n` more ticks of the unit counted. -/
def ViewScan.addTicks (u : TUnit) (n : Nat) (w : ViewScan) : ViewScan :=
  match u with
  | .us => { w with usTicks := w.usTicks + n }
  | .ms => { w with msTicks := w.msTicks + n }

theorem foldl_viewNext_ticks (u : TUnit) (n : Nat) (w : ViewScan) :
    (List.replicate n (Event.tick u)).foldl ViewScan.next w = w.addTicks u n := by
  induction n generalizing w with
  | zero => cases u <;> rfl
  | succ n ih =>
    rw [List.replicate_succ, List.foldl_cons, ih]
    cases u <;> simp [ViewScan.next, ViewScan.addTicks] <;> omega

theorem foldl_viewNext_itemEvents (it : Item) (c : List ViewItem) :
    (itemEvents it).foldl ViewScan.next (betweenViews c) = betweenViews (c ++ [itemView it]) := by
  cases it with
  | frame a v => rfl
  | wait u n =>
    rw [itemEvents, List.foldl_append, foldl_viewNext_ticks]
    cases u <;> simp [ViewScan.addTicks, ViewScan.next, betweenViews, itemView]

theorem foldl_viewNext_commandEvents (w : Word24) (c : List ViewItem) :
    (commandEvents w).foldl ViewScan.next (betweenViews c) =
      betweenViews (c ++ (itemsOrNone w).map itemView) := by
  have hitems := foldl_flatMap_append foldl_viewNext_itemEvents (itemsOrNone w) c
  rw [← List.map_eq_flatMap] at hitems
  rw [commandEvents, List.cons_append, List.foldl_cons, List.foldl_append]
  exact congrArg (fun vs => ViewScan.next vs .cmdDone) hitems

/-- Settles O55: both scans, command by command and item by item. -/
theorem viewIsTheItemsOfTheCommands : Obligations.ViewIsTheItemsOfTheCommands := by
  intro ws _
  rw [windows, strayBytes, openWindow, scanWindows_flatMap_commandEvents]
  exact ⟨rfl, rfl, rfl,
    congrArg ViewScan.items (foldl_flatMap_append foldl_viewNext_commandEvents ws [])⟩

/-! ### The image of completed commands (20_memory.md R86) -/

/-- The image after a list's register writes is that of its windows. -/
theorem foldl_imageStep_itemWindows (l : List Item) (m : Memory) :
    (l.flatMap itemWindows).foldl imageStep m = imageAfter m l := by
  induction l generalizing m with
  | nil => rfl
  | cons it l ih =>
    cases it with
    | frame a v => exact ih (m.write a v)
    | wait u n => exact ih m

theorem imageAfter_append (l l' : List Item) (m : Memory) :
    imageAfter m (l ++ l') = imageAfter (imageAfter m l) l' := by
  simp only [← foldl_imageStep_itemWindows, List.flatMap_append, List.foldl_append]

theorem imageOf_flatMap_commandEvents (ws : List Word24) :
    imageOf (ws.flatMap commandEvents) = imageAfter [] (ws.flatMap itemsOrNone) := by
  rw [imageOf, windows, scanWindows_flatMap_commandEvents, ← foldl_imageStep_itemWindows,
    List.flatMap_assoc]
  rfl

/-- Settles O56: the windows of the commands are those of their register writes. -/
theorem imageIsTheRegisterWritesInOrder : Obligations.ImageIsTheRegisterWritesInOrder :=
  fun ws _ => imageOf_flatMap_commandEvents ws

/-- One command more writes the registers of its list. -/
theorem imageOf_concat_command (ws : List Word24) (w : Word24) :
    imageOf ((ws ++ [w]).flatMap commandEvents) =
      imageAfter (imageOf (ws.flatMap commandEvents)) (itemsOrNone w) := by
  rw [imageOf_flatMap_commandEvents, imageOf_flatMap_commandEvents, List.flatMap_append,
    imageAfter_append]
  simp

/-! ### What a list's writes leave in a register -/

theorem read_imageAfter_of_not_mem (h : ∀ v, .frame a v ∉ l) :
    (imageAfter m l).read a = m.read a := by
  induction l generalizing m with
  | nil => rfl
  | cons it l ih =>
    have hl : ∀ v, .frame a v ∉ l := fun v hv => h v (List.mem_cons_of_mem _ hv)
    cases it with
    | frame b x =>
      have hne : a ≠ b := by
        rintro rfl
        exact h x List.mem_cons_self
      exact (ih hl).trans (Memory.read_write_other m b x a hne)
    | wait u n => exact ih hl

/-- A register that the list writes, and always with one value, holds that value. -/
theorem read_imageAfter_of_mem (hmem : .frame a v ∈ l) (hall : ∀ x, .frame a x ∈ l → x = v) :
    (imageAfter m l).read a = some v := by
  induction l generalizing m with
  | nil => cases hmem
  | cons it l ih =>
    have hl : ∀ x, .frame a x ∈ l → x = v := fun x hx => hall x (List.mem_cons_of_mem _ hx)
    by_cases hlater : .frame a v ∈ l
    · cases it with
      | frame b x => exact ih hlater hl
      | wait u n => exact ih hlater hl
    · obtain rfl | hlater' := List.mem_cons.1 hmem
      · have hnone : ∀ x, .frame a x ∉ l := fun x hx => hlater (hl x hx ▸ hx)
        exact (read_imageAfter_of_not_mem hnone).trans (Memory.read_write_same m a v)
      · exact absurd hlater' hlater

theorem Memory.read_eq_none_of_forall_lt (h : ∀ c ∈ m, a.toNat < c.1) : m.read a = none := by
  induction m with
  | nil => rfl
  | cons c rest ih =>
    obtain ⟨k, x⟩ := c
    have hk : k ≠ a.toNat := (h (k, x) List.mem_cons_self).ne'
    rw [Memory.read, if_neg hk]
    exact ih fun c hc => h c (List.mem_cons_of_mem _ hc)

/-- Writing the value a register already holds changes nothing. -/
theorem Memory.write_of_read (hm : m.Pairwise fun x y => x.1 < y.1) (h : m.read a = some v) :
    m.write a v = m := by
  induction m with
  | nil => cases h
  | cons c rest ih =>
    obtain ⟨k, x⟩ := c
    obtain ⟨hk, hrest⟩ := List.pairwise_cons.1 hm
    unfold Memory.write
    rw [Memory.read] at h
    split
    · next hlt =>
      rw [if_neg hlt.ne', Memory.read_eq_none_of_forall_lt fun c hc => hlt.trans (hk c hc)] at h
      cases h
    · split
      · next heq =>
        rw [if_pos heq.symm] at h
        cases h
        rfl
      · next hne =>
        rw [if_neg (Ne.symm hne)] at h
        rw [ih hrest h]

/-- A list that writes what the registers already hold changes nothing. -/
theorem imageAfter_of_read (hm : m.wf = true) (h : ∀ a v, .frame a v ∈ l → m.read a = some v) :
    imageAfter m l = m := by
  induction l with
  | nil => rfl
  | cons it l ih =>
    have hl := ih fun a v hmem => h a v (List.mem_cons_of_mem _ hmem)
    cases it with
    | frame a v =>
      rw [imageAfter, Memory.write_of_read ((Memory.wf_iff m).1 hm).1 (h a v List.mem_cons_self), hl]
    | wait u n => exact hl

/-! ### CLRDISP and INITDISP (44_sequencer.md R220, R221) -/

theorem itemsOrNone_clrDisp : itemsOrNone 0x020000 = clearItems := rfl

theorem itemsOrNone_initDisp : itemsOrNone 0x010000 = itemsInitDisp := rfl

/-- CLEAR writes 0x00 to the eight digit registers. -/
theorem mem_clearItems_iff : .frame a v ∈ clearItems ↔ positionInContract a = true ∧ v = 0x00 := by
  constructor
  · intro h
    simp only [clearItems_eq, List.mem_cons, Item.frame.injEq, List.not_mem_nil, or_false] at h
    rcases h with ⟨rfl, rfl⟩ | ⟨rfl, rfl⟩ | ⟨rfl, rfl⟩ | ⟨rfl, rfl⟩ | ⟨rfl, rfl⟩ | ⟨rfl, rfl⟩ |
      ⟨rfl, rfl⟩ | ⟨rfl, rfl⟩ <;> decide
  · rintro ⟨ha, rfl⟩
    obtain rfl | rfl | rfl | rfl | rfl | rfl | rfl | rfl := position_cases ha <;> decide

theorem read_imageAfter_clearItems (ha : positionInContract a = true) (m : Memory) :
    (imageAfter m clearItems).read a = some 0x00 :=
  read_imageAfter_of_mem (mem_clearItems_iff.2 ⟨ha, rfl⟩) fun _ hx => (mem_clearItems_iff.1 hx).2

/-- Settles O57: CLEAR writes what the digit registers hold after it, and no other register. -/
theorem clrDispIsIdempotent : Obligations.ClrDispIsIdempotent := by
  intro ws _ once
  have honce : once = imageAfter (imageOf (ws.flatMap commandEvents)) clearItems := by
    rw [← itemsOrNone_clrDisp]
    exact imageOf_concat_command ws 0x020000
  have hdigits (p : Byte) (hp : positionInContract p = true) : once.read p = some 0x00 :=
    honce ▸ read_imageAfter_clearItems hp _
  refine ⟨?_, fun p hlow hhigh => hdigits p (positionInContract_iff.2 ⟨hlow, hhigh⟩), fun a ha => ?_⟩
  · have htwice := imageOf_concat_command (ws ++ [0x020000]) 0x020000
    rw [List.append_assoc, itemsOrNone_clrDisp] at htwice
    refine htwice.trans (imageAfter_of_read (imageOf_wf _) fun a v hmem => ?_)
    obtain ⟨ha, rfl⟩ := mem_clearItems_iff.1 hmem
    exact hdigits a ha
  · rw [honce, read_imageAfter_of_not_mem fun v hmem => ?_]
    have hpos := positionInContract_iff.1 (mem_clearItems_iff.1 hmem).1
    omega

/-- The register an item writes, if it is a frame. -/
def writtenAddress : Item → Option Byte
  | .frame a _ => some a
  | .wait _ _ => none

/-- INITDISP writes no register twice. -/
theorem itemsInitDisp_writes_once : ∀ i ∈ itemsInitDisp, ∀ j ∈ itemsInitDisp,
    writtenAddress i = writtenAddress j → i = j := by decide

theorem read_after_initDisp (hmem : .frame a v ∈ itemsInitDisp) (ws : List Word24) :
    (imageOf ((ws ++ [0x010000]).flatMap commandEvents)).read a = some v := by
  rw [imageOf_concat_command, itemsOrNone_initDisp]
  refine read_imageAfter_of_mem hmem fun x hx => ?_
  exact (Item.frame.inj (itemsInitDisp_writes_once _ hx _ hmem rfl)).2

/-- Settles O58: each register is one that INITDISP writes, and writes once. -/
theorem initDispMakesTheDisplayReady : Obligations.InitDispMakesTheDisplayReady := by
  intro ws _ m
  refine ⟨⟨?_, ?_, ?_⟩, ?_, ?_, fun p hlow hhigh => ?digit⟩
  case digit =>
    have hclear : .frame p 0x00 ∈ clearItems :=
      mem_clearItems_iff.2 ⟨positionInContract_iff.2 ⟨hlow, hhigh⟩, rfl⟩
    exact read_after_initDisp (List.mem_append_left _ (List.mem_append_right _ hclear)) ws
  all_goals exact read_after_initDisp (by decide) ws

end Sys2Proof.Machine
end

section
/-! PROOFS. Every in-contract command runs to its end: a schedule that always takes an enabled turn. -/

namespace Sys2Proof.Machine

variable {s t : State} {m : Move} {ws : List Word24}

/-! ### A turn does not read the moves after it (log 1) -/

theorem latchWindow_with_sched (w : Option (List Byte)) (ms : List Move) (s : State) :
    latchWindow w { s with sched := ms } = { latchWindow w s with sched := ms } := by
  unfold latchWindow
  split
  · split
    · simp only [latchPair_eq]
    · rfl
  · rfl

theorem MicroTurn.with_sched (ht : MicroTurn s t) (ms : List Move) :
    MicroTurn { s with sched := ms } { t with sched := ms } := by
  cases ht with
  | finish hms hl hfi => exact .finish hms hl hfi
  | @load l it hms hl hit =>
    have hload : loadItem it { s with sched := ms } = { loadItem it s with sched := ms } := by
      cases it <;> rfl
    exact hload ▸ .load hms hl hit
  | t1 hms hsel => exact .t1 hms hsel
  | t2 hms => exact .t2 hms
  | t3 hms => exact .t3 hms
  | t4 hms hspace hb => exact .t4 hms hspace hb
  | t5a hms htxq => exact .t5a hms htxq
  | t5b hms hshift => exact .t5b hms hshift
  | t6 hms => exact .t6 hms
  | t7t hms => exact .t7t hms
  | t7w hms hrfl => exact .t7w hms hrfl
  | t8 hms =>
    rw [← latchWindow_with_sched]
    exact .t8 hms
  | t9 hms => exact .t9 hms
  | wl hms => exact .wl hms
  | wc hms => exact .wc hms
  | ws hms => exact .ws hms
  | wo hms hovf hdn => exact .wo hms hovf hdn
  | wx hms => exact .wx hms

theorem Turn.with_sched (ht : Turn s m t) (ms : List Move) :
    Turn { s with sched := ms } m { t with sched := ms } := by
  cases ht with
  | hold hen => exact .hold hen
  | accept hidle hvalid hd => exact .accept hidle hvalid hd
  | micro hrun ht => exact .micro hrun (ht.with_sched ms)
  | host hvalid hprog => exact .host hvalid hprog
  | pe1 hshift htxq => exact .pe1 hshift htxq
  | pe2 hshift => exact .pe2 hshift
  | pe3 hrfl => exact .pe3 hrfl
  | te1 hrun hovf => exact .te1 hrun hovf

theorem run_succ_of_step (h : step s = .next t) (k : Nat) :
    Host.Core.run Sys2Proof.core (k + 1) s = Host.Core.run Sys2Proof.core k t := by
  have hstep : Sys2Proof.core.step s = .next t := h
  simp only [Host.Core.run, hstep]

/-- A turn at the head of the schedule is the first step of the run. -/
theorem Turn.run_cons (ht : Turn s m t) (ms : List Move) :
    Host.Core.run Sys2Proof.core (m :: ms).length { s with sched := m :: ms } =
      Host.Core.run Sys2Proof.core ms.length { t with sched := ms } :=
  run_succ_of_step (Turn.step_eq (s := { s with sched := m :: ms }) (ht.with_sched ms)) ms.length

/-! ### The environment's turns run out (20_memory.md R80 to R83; 60_exceptions.md R262) -/

/-- How many turns of the bus peripheral and the timer are possible before the block's next. -/
def environmentTurns (s : State) : Nat :=
  2 * s.bus.txq.length + s.bus.shift.toList.length + s.bus.rfl.toNat + (!s.timer.ovf).toNat

theorem Turn.environmentTurns_lt (ht : Turn s m t) (hen : moveEnabled m s = true)
    (hblock : m ≠ .block) (hhost : m ≠ .host) : environmentTurns t < environmentTurns s := by
  cases ht with
  | hold hfalse => cases hen.symm.trans hfalse
  | accept | micro => exact absurd rfl hblock
  | host => exact absurd rfl hhost
  | pe1 hshift htxq => simp [environmentTurns, hshift, htxq]; omega
  | pe2 hshift => simp [environmentTurns, hshift]
  | pe3 hrfl => simp [environmentTurns, hrfl]
  | te1 _ hovf => simp [environmentTurns, hovf]

/-- Every enabled turn but the host's brings a running command nearer its end. -/
theorem Turn.measure_lt (ht : Turn s m t) (hinv : Inv s) (hrun : s.block.phase = .run)
    (hen : moveEnabled m s = true) (hhost : m ≠ .host) :
    Prod.Lex (· < ·) (· < ·) (stepsLeft t, environmentTurns t) (stepsLeft s, environmentTurns s) := by
  have hsteps := ht.stepsLeft_eq hrun hinv.busInv hinv.positionInv
  by_cases hm : m = .block
  · rw [if_pos ⟨hm, hen⟩] at hsteps
    exact .left _ _ (by omega)
  · rw [if_neg fun h => hm h.1, Nat.add_zero] at hsteps
    rw [hsteps]
    exact .right _ (ht.environmentTurns_lt hen hm hhost)

/-! ### The schedule -/

/-- A turn that goes on with the command keeps its word. -/
theorem Turn.latchedWord_eq (ht : Turn s m t) (hrun : s.block.phase = .run) :
    latchedWord t = latchedWord s := by
  cases ht with
  | accept hidle => cases hidle.symm.trans hrun
  | micro _ ht => exact latchedWord_congr ht.latch_eq
  | hold | host | pe1 | pe2 | pe3 | te1 => rfl

/-- A running command has a schedule that ends it, with its events in the trace. -/
theorem exists_turns_to_idle (s : State) (hinv : Inv s) (hrun : s.block.phase = .run)
    (htrace : TraceOf ws s) : ∃ (turns : List Move) (u : State),
      Host.Core.run Sys2Proof.core turns.length { s with sched := turns } = .next u ∧
      u.block.phase = .idle ∧ TraceOf (ws ++ [latchedWord s]) u ∧ Inv u := by
  obtain ⟨m, hhost, hen⟩ := exists_moveEnabled hinv.busInv hinv.timerInv hrun
  obtain ⟨t, ht⟩ := exists_turn_of_run hinv.busInv hinv.positionInv hrun m
  have hmeasure := ht.measure_lt hinv hrun hen hhost
  have htrace' := ht.keeps_traceOf hinv.busInv hinv.positionInv htrace
  cases hphase : t.block.phase with
  | idle =>
    rw [completedAfter, if_pos ⟨hrun, hphase⟩] at htrace'
    exact ⟨[m], { t with sched := [] }, ht.run_cons [], hphase, htrace', ht.keeps_inv hinv⟩
  | run =>
    rw [completedAfter, if_neg (by simp [hphase])] at htrace'
    obtain ⟨turns, u, hu, hidle, hend, hinv'⟩ :=
      exists_turns_to_idle t (ht.keeps_inv hinv) hphase htrace'
    rw [ht.latchedWord_eq hrun] at hend
    exact ⟨m :: turns, u, (ht.run_cons turns).trans hu, hidle, hend, hinv'⟩
termination_by (stepsLeft s, environmentTurns s)
decreasing_by exact hmeasure

/-- An in-contract command taken from an idle state of the invariant: the invariant does not look at the
port, so the acceptance is that of the command's word offered there. -/
theorem accepted_command_keeps {i : Instr} (hi : i.format = .cmd24) (hwf : i.wellFormed = true)
    (hidle : s.block.phase = .idle) (hinv : Inv s) (htrace : TraceOf ws s) :
    Inv (latchCommand (encode i) { s with intMark := s.intMark || marksRun i }) ∧
    TraceOf ws (latchCommand (encode i) { s with intMark := s.intMark || marksRun i }) := by
  have ht := Turn.accept (s := { s with port := { valid := true, word := encode i } }) hidle rfl
    (decodeCmd_encode_of_wellFormed hi hwf)
  have htrace' := ht.keeps_traceOf hinv.busInv hinv.positionInv htrace
  rw [completedAfter, if_neg (by simp)] at htrace'
  exact ⟨ht.keeps_inv hinv, htrace'⟩

/-- Settles O59: the acceptance, and then the schedule that ends the command. -/
theorem everyCommandRunsToCompletion : Obligations.EveryCommandRunsToCompletion := by
  intro s i hinv hidle hi hwf
  obtain ⟨ws, -, htrace⟩ := traceInv_iff.1 hinv.traceInv
  obtain ⟨hinv', htrace'⟩ := accepted_command_keeps hi hwf hidle hinv htrace
  obtain ⟨turns, u, hu, hidle', hend, hinv''⟩ := exists_turns_to_idle _ hinv' rfl htrace'
  refine ⟨_, exec_command_wellFormed hi hidle hwf, turns, u, hu, hidle', ?_, hinv''⟩
  rw [(traceOf_idle_iff hidle').1 hend, (traceOf_idle_iff hidle).1 htrace,
    latchedWord_latchCommand, mkWord_fields]
  simp

end Sys2Proof.Machine
end
